-- ==== Sys2Proof/Word.lean ====
section
/-!
DEFINITION. The word types of the TN-260: bytes of the ply line and of the configuration memory, the
strap value, and the check register. Every measured quantity of the part (lengths, counts, paces) is a
whole number that saturates or clamps (introduction, section 7), so those are `Nat` or `Int`; only what
the manual treats as bits is a bit vector.
-/

namespace Sys2Proof

/-- One byte of the ply line or of the configuration block (R175, R199). -/
abbrev Byte := BitVec 8

/-- One byte as it stands on the ply line, 10 bit times, bit 0 first: the start bit, the 8 data bits least
significant first, and the stop bit (R175). -/
abbrev LineByte := BitVec 10

/-- A byte as a station sends it: start bit low, stop bit high (R175). -/
def LineByte.send (b : Byte) : LineByte := 1#1 ++ b ++ 0#1

/-- The data bits of a byte that arrived, whatever its stop bit reads (R175). -/
def LineByte.data (c : LineByte) : Byte := c.extractLsb' 1 8

/-- The six straps ADR5..ADR0, ADR5 most significant (R198). -/
abbrev Straps := BitVec 6

/-- The 16-bit check register of a frame (R176). -/
abbrev Check := BitVec 16

end Sys2Proof
end

