-- ==== Sys2Proof/Syntax.lean ====
section
/-!
DEFINITION. The commands of the TN-260: one constructor of `Instr` for each row of spec/opcode_table.json,
with the operands the row's event carries. A received frame carries its header fields and its payload
bytes as they stood on the line, so that the receive checks of R187 are the model's own work. The table
gives no row any bits, so no command has an encoding as a word.
-/

namespace Sys2Proof

/-- A frame that arrived whole on LRX with the check its bytes give (R176). Its kind is the command's. Each of
its bytes stands with its data bits, whatever its stop bit read (R175); RECEIVE_ERROR carries the bits too.
`top` is bits 7..4 of byte 0, which a receiver ignores; byte 3 is the payload's length. -/
structure RxFrame where
  top     : BitVec 4
  sender  : Byte
  dest    : Byte
  payload : List Byte
  deriving DecidableEq, Repr

/-- The parts of an ASK frame that every request carries (R190): header bytes and the tag. -/
structure AskHead where
  top    : BitVec 4
  sender : Byte
  dest   : Byte
  tag    : Byte
  deriving DecidableEq, Repr

/-- An ASK frame: its head and the operand bytes after the request byte (R190). -/
structure Ask where
  head : AskHead
  args : List Byte
  deriving DecidableEq, Repr

/-- What the configuration memory did in one read attempt (R199). Past step 1, `clocks` is the number of SCL
clocks that released SDA, 0 when SDA read high from the start. -/
inductive ReadResult where
  | sdaStuck                                             -- SDA still low after 9 clocks of step 1
  | noAckAddress (clocks : Fin 10)                       -- bus address for writing not acknowledged
  | noAckOffset (clocks : Fin 10)                        -- byte address 0 not acknowledged
  | noAckRead (clocks : Fin 10)                          -- bus address for reading not acknowledged
  | image (clocks : Fin 10) (bytes : Vector Byte 128)    -- the 128 bytes were read
  deriving DecidableEq, Repr

/-- The commands, in the table's order. -/
inductive Instr where
  | coldReset
  | resetRelease (straps : Straps)
  | blockReadAttempt (result : ReadResult)
  | readRetry
  | warmRestart (straps : Straps)
  | activeSourcePulse
  | nonActiveSourcePulse
  | spindlePulse
  | rowStroke
  | sectionEdge (input : Fin 8)
  | jniEdge
  | brkActive
  | brkInactive
  | stpEdge
  | staEdge
  | clrEdge
  | regulationTick
  | dwellStart
  | pacePeriodExpiry
  | peerStale (entry : Fin 6)
  | markShiftComplete
  | cutPulseEnd
  | accessStart
  | frameSent
  | collision
  | normalHoldTimeout
  | paceFrame (frame : RxFrame)
  | haltFrame (frame : RxFrame)
  | resumeFrame (frame : RxFrame)
  | goFrame (frame : RxFrame)
  | handoffFrame (frame : RxFrame)
  | pkgFrame (frame : RxFrame)
  | answerFrame (frame : RxFrame)
  | askStatus (ask : Ask)
  | askLine (ask : Ask)
  | askPeers (ask : Ask)
  | askMap (ask : Ask)
  | askPackage (ask : Ask)
  | askBankRead (ask : Ask)
  | askBankWrite (ask : Ask)
  | askRun (ask : Ask)
  | askChange (ask : Ask)
  | askGo (ask : Ask)
  | askStop (ask : Ask)
  | askClear (ask : Ask)
  | askClearForce (head : AskHead)
  | askEnd (ask : Ask)
  | askRestart (ask : Ask)
  | receiveError (chars : List LineByte)
  | askUnknown (request : Byte) (ask : Ask)
  | burstNextFrame
  deriving DecidableEq, Repr

end Sys2Proof
end

