-- ==== Sys2Proof/Decode.lean ====
section
/-!
DEFINITION. spec/opcode_table.json gives none of its rows any bits: the TN-260 takes commands at its pins
and on its line, not as coded words. So no word spells a command.
-/

namespace Sys2Proof

/-- The command a word spells by the table's bits: none, for no row has bits. -/
def decodeTableWord (_nbits _w : Nat) : Option Instr := none

end Sys2Proof
end

