-- ==== Sys2Proof/Config.lean ====
section
/-!
DEFINITION. The fixed capacities and limits of the part. They are the numbers the manual prints; nothing
here is chosen by an implementation and no value of the manual is left free, so this file declares no
opaque constant (log entry 1).
-/

namespace Sys2Proof.Config

/-- Entries the run map holds at most (R68). -/
def mapCapacity : Nat := 64
/-- Records the package table holds at most (R92). -/
def tableCapacity : Nat := 16
/-- Cuts the cut list holds at most (R94). -/
def cutCapacity : Nat := 6
/-- Items a record's defects list holds at most (R107). -/
def defectCapacity : Nat := 8
/-- Offsets a record's joins list holds at most (R106). -/
def joinCapacity : Nat := 4
/-- Records the pending arrivals list holds at most (R140). -/
def arrivalCapacity : Nat := 12
/-- Peer halt records held at most (R170). -/
def haltCapacity : Nat := 8
/-- Frames the transmit queue holds at most (R184). -/
def queueCapacity : Nat := 8
/-- Collisions at which a frame is dropped (R183). -/
def collisionLimit : Nat := 16
/-- Idle count at which the normal hold clears (R182). -/
def holdIdle : Nat := 128
/-- Read attempts made at one START (R199). -/
def readAttempts : Nat := 3
/-- Length within which a JNI edge merges into the last local JOIN, in mm (R72). -/
def joinMerge : Nat := 200
/-- Run position at which RUN_LIMIT is raised, in mm (R2). -/
def runLimit : Nat := 4000000000
/-- Greatest value of the position accumulator, in micrometres (R2). -/
def accMax : Nat := 4294967295999
/-- Greatest position or extent in mm (section 4.1). -/
def posMax : Nat := 4294967295
/-- Top of a 16-bit saturating count. -/
def count16 : Nat := 65535
/-- Top of an 8-bit saturating count. -/
def count8 : Nat := 255

end Sys2Proof.Config
end

