-- ==== Sys2Proof/Machine/State.lean ====
section
/-!
DEFINITION. The state of one TN-260 as plain data, block by block as the manual divides it, the queue of
waiting commands, the reasons a step may stop, and the state right after a cold reset. Views the manual
derives from other state (run position, in-service cause, X, plan distance, S_base's inputs) are computed
where they are read; INVENTORY.md names each of them.
-/

namespace Sys2Proof.Machine

/-! ## Named values (R177 gives their codes) -/

/-- The seven station states (section 8.1). -/
inductive StationState where
  | start | held | idle | ready | run | easing | stopped
  deriving DecidableEq, Repr

/-- Machine kind (R200). -/
inductive MachineKind where
  | laying | netting | plain
  deriving DecidableEq, Repr

/-- Weight of a cause (section 8.2). -/
inductive Level where
  | hard | soft
  deriving DecidableEq, Repr

/-- The eleven local causes of the cause set table (section 8.2). -/
inductive LocalCause where
  | brk | localStop | requestStop | twistLimit | knotRun | slipLost | handoffLost | mapFull
  | packageDoff | runLimit | peerOverflow
  deriving DecidableEq, Repr

/-- A cause of the cause set: local, or a peer halt record at its level. -/
inductive Cause where
  | loc (c : LocalCause)
  | peerHalt (l : Level)
  deriving DecidableEq, Repr

/-- A cause with its origin, as first cause and in-service cause show it (R165). -/
structure HeldCause where
  cause  : Cause
  origin : Nat
  deriving DecidableEq, Repr

/-- A halt taken from the line (R170). -/
structure PeerHalt where
  origin : Nat
  level  : Level
  deriving DecidableEq, Repr

/-- Kinds of run map entry (section 4.1). -/
inductive EntryKind where
  | join | twist | knot | mesh | slip | dwell | stop | change
  deriving DecidableEq, Repr

/-- Weight of a finding. -/
inductive Severity where
  | minor | major
  deriving DecidableEq, Repr

/-- Pulse source of the run position (R1). -/
inductive Source where
  | a | b
  deriving DecidableEq, Repr

/-- Class of a closed twist window (R27). -/
inductive WindowClass where
  | inTol | minor | major
  deriving DecidableEq, Repr

/-- How section results combine (R52). -/
inductive KnotMode where
  | any | all
  deriving DecidableEq, Repr

/-- What a row's advance is compared with (R54, R55). -/
inductive MeshRef where
  | first | prev
  deriving DecidableEq, Repr

/-- Role of a listen entry. -/
inductive ListenRole where
  | feed | take
  deriving DecidableEq, Repr

/-- What R127 made of a listen entry. -/
inductive ListenStatus where
  | unused | peer | ignored
  deriving DecidableEq, Repr

/-- State of a recipe bank (R115). -/
inductive BankState where
  | empty | loaded | active | staged
  deriving DecidableEq, Repr

/-- Type of a package record. -/
inductive PackageType where
  | normal | scrap
  deriving DecidableEq, Repr

/-- State of a package record (R93). -/
inductive PackageState where
  | opened | closed | reported
  deriving DecidableEq, Repr

/-- Whether a CLOSED record's PKG frame waits in the transmit queue (R93). -/
inductive ReportState where
  | queued | unsent
  deriving DecidableEq, Repr

/-- Grade of a closed package (R109). -/
inductive Grade where
  | first | second | scrap
  deriving DecidableEq, Repr

/-- Why a package ended (R108, R111). -/
inductive CloseReason where
  | length | joinLimit | cutOut | change | endRun
  deriving DecidableEq, Repr

/-- Why a PACKAGE_END was placed (section 5.1). -/
inductive PlanReason where
  | length | joinLimit
  deriving DecidableEq, Repr

/-- Purpose of a cut. -/
inductive CutPurpose where
  | packageEnd | scrapStart | scrapEnd | change
  deriving DecidableEq, Repr

/-- Outcome of the last START (R200). -/
inductive StartReason where
  | none | noAck | badTag | badSum | straps
  deriving DecidableEq, Repr

/-- Where START stands: in reset with RSTn low, an attempt running, the 5 ms wait, or over. -/
inductive StartPhase where
  | inReset | attempting | waiting | over
  deriving DecidableEq, Repr

/-- Error type of a receive check (R187). -/
inductive LineError where
  | length | check | kind | size | address
  deriving DecidableEq, Repr

/-! ## Configuration and start (chapter 10) -/

/-- The configuration values of the block but for the listen table and the recipe image (R200). -/
structure Settings where
  kind         : MachineKind
  forming      : Bool
  stepA        : Nat
  stepB        : Nat
  ppr          : Nat
  smax         : Nat
  ownLimit     : Nat
  rampUp       : Nat
  rampDown     : Nat
  stopRamp     : Nat
  pacePeriod   : Nat
  staleTime    : Nat
  dwellTime    : Nat
  slipSpan     : Nat
  slipTol      : Nat
  slipPersist  : Nat
  cutterOffset : Nat
  retention    : Nat
  burst        : Nat
  startBank    : Nat
  deriving DecidableEq, Repr

/-- What SCL and SDA carry in a read attempt, clock by clock (R199): a start or repeated start condition, a
stop condition, a clock of step 1 that is to release SDA, a clock in which the station sets SDA, and one in
which the memory sets it. An acknowledge is SDA low. -/
inductive BusItem where
  | startCond
  | stopCond
  | releaseClock
  | stationBit (sda : Bool)
  | memoryBit (sda : Bool)
  deriving DecidableEq, Repr

/-- State of chapter 10. `settings` is `none` while no configuration value is taken; `scl` and `sda` are the
levels at which the station leaves the two pins, high when released. -/
structure StartBlock where
  phase    : StartPhase
  number   : Nat
  image    : Option (List Byte)
  attempts : Nat
  reason   : StartReason
  clamped  : Nat
  settings : Option Settings
  bus      : List BusItem
  scl      : Bool
  sda      : Bool
  deriving DecidableEq, Repr

/-! ## Station control (chapter 8) -/

/-- State of chapter 8. `locals` holds the local causes in order of taking, `peers` the peer halt records
in order of taking; `answerGone` is set once the ANSWER to an accepted RESTART has left or been dropped;
`brkActive` is the level of the BRK pin. -/
structure Station where
  state          : StationState
  restartPending : Bool
  answerGone     : Bool
  locals         : List LocalCause
  peers          : List PeerHalt
  firstCause     : Option HeldCause
  prevFirst      : Option HeldCause
  den            : Bool
  alm            : Bool
  brkActive      : Bool
  deriving DecidableEq, Repr

/-! ## Length metering and metre marks (chapter 1) -/

/-- Position, slip check and dwell. The run position is `acc / 1000`. -/
structure Length where
  acc        : Nat
  source     : Source
  switched   : Bool
  degraded   : Bool
  la         : Nat
  lb         : Nat
  badSpans   : Nat
  lastSlip   : Nat
  dwellCount : Nat
  dwelling   : Bool
  deriving DecidableEq, Repr

/-- Metre marks. `printer` is `none` while the link is free and otherwise the 20 bits being shifted out on
MKD, in order (R14). `mkc` and `mkd` are the levels at which the two pins rest (R14, R20): a shift under way
shows in `printer`, and `mkd` then holds its last bit (log entry 47). -/
structure Marks where
  counter  : Nat
  next     : Option Nat
  interval : Nat
  printer  : Option (List Bool)
  mkc      : Bool
  mkd      : Bool
  skipped  : Nat
  deriving DecidableEq, Repr

/-! ## Twist regulation (chapter 2) -/

/-- What the set-point link carries in a transfer (R39): a rising edge of DCK with a bit valid on DDA, or a
pulse on DLT. -/
inductive LinkItem where
  | bit (dda : Bool)
  | latch
  deriving DecidableEq, Repr

/-- Twist window, run, trim, effective target, spindle set-point and set-point link. `link` is what the last
transfer put on the link, in order; none yet leaves it empty (R39). `dck`, `dda` and `dlt` are the levels of
the three pins between transfers (R46). -/
structure Twist where
  windowOpen  : Bool
  pulses      : Nat
  width       : Nat
  windowStart : Nat
  lastT10     : Option Nat
  lastD10     : Int
  lastE       : Option Int
  lastClass   : Option WindowClass
  windowCount : Nat
  offRun      : Nat
  offStart    : Nat
  offMajor    : Bool
  majorRun    : Nat
  trim        : Int
  eff10       : Option Nat
  sBase       : Nat
  sCmd        : Nat
  ownOffer    : Nat
  linkCapstan : Nat
  linkSpindle : Nat
  link        : List LinkItem
  dck         : Bool
  dda         : Bool
  dlt         : Bool
  deriving DecidableEq, Repr

/-! ## Knot and mesh inspection (chapter 3) -/

/-- Results of the last row close (R63). -/
structure RowResult where
  missing   : Nat
  knotFlag  : Bool
  major     : Bool
  advance   : Option Nat
  deviation : Option Nat
  meshFlag  : Bool
  deriving DecidableEq, Repr

/-- Row, references, runs and statistics. -/
structure Knot where
  rowOpen     : Bool
  rowStart    : Nat
  prevClose   : Option Nat
  counters    : Vector Nat 8
  prevAdvance : Option Nat
  firstRef    : Option Nat
  last        : RowResult
  knotRun     : Nat
  knotStart   : Nat
  knotMajor   : Bool
  meshRun     : Nat
  meshStart   : Nat
  overcount   : Vector Nat 8
  rowsClosed  : Nat
  knotRows    : Nat
  meshRows    : Nat
  deriving DecidableEq, Repr

/-! ## Run map (chapter 4) -/

/-- One entry of the run map. `lastLocal` marks the entry that the last local JOIN, DWELL or STOP
reference of its kind names, so that the reference is none as soon as the entry leaves. -/
structure MapEntry where
  kind      : EntryKind
  origin    : Nat
  position  : Nat
  extent    : Nat
  severity  : Severity
  count     : Nat
  isOpen    : Bool
  forwarded : Bool
  lastLocal : Bool
  deriving DecidableEq, Repr

/-- The run map and its counts. -/
structure RunMap where
  entries : List MapEntry
  dropped : Nat
  evicted : Nat
  deriving DecidableEq, Repr

/-! ## Package former (chapter 5) -/

/-- A defect item of a package record. -/
structure DefectItem where
  offset   : Nat
  kind     : EntryKind
  extent   : Nat
  severity : Severity
  origin   : Nat
  deriving DecidableEq, Repr

/-- A package record. -/
structure PackageRecord where
  number         : Nat
  type           : PackageType
  bank           : Nat
  productCode    : Nat
  startPos       : Nat
  endPos         : Option Nat
  joinCount      : Nat
  joins          : List Nat
  defects        : List DefectItem
  defectsDropped : Nat
  grade          : Option Grade
  reason         : Option CloseReason
  state          : PackageState
  report         : Option ReportState
  deriving DecidableEq, Repr

/-- A cut of the cut list. `plan` is present on a PACKAGE_END, `pairStart` on a SCRAP_END; `placed` is its
place in the order of placement, which orders cuts of equal position (R94). -/
structure Cut where
  position  : Nat
  purpose   : CutPurpose
  firm      : Bool
  plan      : Option PlanReason
  waiting   : Bool
  pairStart : Option Nat
  placed    : Nat
  deriving DecidableEq, Repr

/-- Package table, cut list, CUT output and counts. -/
structure Former where
  table       : List PackageRecord
  nextNumber  : Nat
  cuts        : List Cut
  cutHigh     : Bool
  reportsLost : Nat
  cutsRefused : Nat
  deriving DecidableEq, Repr

/-! ## Recipe banks (chapter 6) -/

/-- Twist page (page 0). -/
structure TwistPage where
  target10    : Nat
  tolM        : Nat
  tolX        : Nat
  persistence : Nat
  gain        : Nat
  lw          : Nat
  deriving DecidableEq, Repr

/-- Knot page (page 1). -/
structure KnotPage where
  sections  : Nat
  expected  : Nat
  threshold : Nat
  mode      : KnotMode
  duration  : Nat
  majorRow  : Nat
  runLimit  : Nat
  meshTol   : Nat
  meshRef   : MeshRef
  deriving DecidableEq, Repr

/-- Package page (page 2). -/
structure PackagePage where
  target         : Nat
  minimum        : Nat
  maximum        : Nat
  margin         : Nat
  planDistance   : Nat
  maxJoins       : Nat
  minorAllowance : Nat
  cutOutMajor    : Bool
  haltAtClose    : Bool
  markInterval   : Nat
  productCode    : Nat
  deriving DecidableEq, Repr

/-- A recipe bank. Its written set is the set of pages present. -/
structure Bank where
  state   : BankState
  twist   : Option TwistPage
  knot    : Option KnotPage
  package : Option PackagePage
  deriving DecidableEq, Repr

/-! ## Peers, pace and hand-off (chapter 7) -/

/-- A PACE report (R129), in the fields of its payload (R178). Cause codes are ranks, 0 for none. -/
structure PaceReport where
  state         : StationState
  activeBank    : Nat
  serviceCause  : Nat
  serviceOrigin : Nat
  firstCause    : Nat
  firstOrigin   : Nat
  ownOffer      : Nat
  feedOffer     : Nat
  takeOffer     : Nat
  runPace       : Nat
  lastD10       : Int
  windowCount   : Nat
  productCode   : Nat
  position      : Nat
  deriving DecidableEq, Repr

/-- A listen entry: settings, what R127 made of it, and the runtime fields. Last state, in-service cause,
offers, D10 and window count are fields of the last report. -/
structure ListenEntry where
  status     : ListenStatus
  number     : Nat
  role       : ListenRole
  takeUp     : Nat
  path       : Nat
  follow     : Level
  weight     : Int
  lastReport : Option PaceReport
  staleCount : Nat
  stale      : Bool
  deriving DecidableEq, Repr

/-- A pending arrival. `feeder` is the FEED peer's station number, whose take-up converts it; `accepted` its
place in the order of acceptance. -/
structure Arrival where
  kind      : EntryKind
  origin    : Nat
  severity  : Severity
  count     : Nat
  extent    : Nat
  feeder    : Nat
  remaining : Int
  accepted  : Nat
  deriving DecidableEq, Repr

/-- State of chapter 7. `nextAccept` is the model's own counter behind the order of acceptance. -/
structure Pace where
  listen          : Vector ListenEntry 6
  listenFaults    : Nat
  feedOffer       : Nat
  takeOffer       : Nat
  target          : Nat
  run             : Nat
  period          : Nat
  arrivals        : List Arrival
  nextAccept      : Nat
  arrivalsDropped : Nat
  handoffsIgnored : Nat
  deriving DecidableEq, Repr

/-! ## Ply line interface (chapter 9) -/

/-- The copy of an entry that a HANDOFF frame keeps (R80). `travel` is what the last transmission attempt
wrote, 0 before the first. -/
structure HandoffCopy where
  dest     : Nat
  kind     : EntryKind
  origin   : Nat
  severity : Severity
  count    : Nat
  extent   : Nat
  entryEnd : Nat
  travel   : Int
  deriving DecidableEq, Repr

/-- The summary a PKG frame carries (R110). -/
structure PkgSummary where
  number      : Nat
  type        : PackageType
  bank        : Nat
  productCode : Nat
  startPos    : Nat
  length      : Nat
  joinCount   : Nat
  defectCount : Nat
  grade       : Option Grade
  reason      : Option CloseReason
  deriving DecidableEq, Repr

/-- What a queued frame carries. `restart` marks the ANSWER to an accepted RESTART (R183). -/
inductive TxBody where
  | halt (origin : Nat) (level : Level)
  | resume (origin : Nat)
  | go (origin : Nat)
  | handoff (copy : HandoffCopy)
  | pkg (summary : PkgSummary)
  | answer (dest : Nat) (payload : List Byte) (restart : Bool)
  deriving DecidableEq, Repr

/-- A frame of the transmit queue with its collision count. -/
structure QFrame where
  body       : TxBody
  collisions : Nat
  inFlight   : Bool
  deriving DecidableEq, Repr

/-- A PACE report in the pace slot with its collision count. -/
structure PaceFrame where
  report     : PaceReport
  collisions : Nat
  deriving DecidableEq, Repr

/-- The first receive error since the counts were last cleared (R187). -/
structure FirstError where
  error : LineError
  byte0 : Nat
  byte1 : Nat
  deriving DecidableEq, Repr

/-- State of chapter 9. `seenIdle` says that the line has been idle since the interface came on: before that
nothing is received (R175). `wire` is the frame in flight on LTX, its bytes as they are sent (empty: LTX at idle level);
`placeHeld` is the place kept for the ANSWER while a request is performed (R191). -/
structure Ply where
  isOn           : Bool
  seenIdle       : Bool
  idle           : Nat
  queue          : List QFrame
  paceWaiting    : Option PaceFrame
  paceFlight     : Option PaceFrame
  hold           : Bool
  access         : Option Nat
  lte            : Bool
  wire           : List LineByte
  lineErrors     : Nat
  numberClash    : Nat
  asksDropped    : Nat
  collisions     : Nat
  collisionDrops : Nat
  queueDrops     : Nat
  firstError     : Option FirstError
  placeHeld      : Bool
  deriving DecidableEq, Repr

/-- The whole part, and `pending`, the queue of commands that wait, first in first out. -/
structure State where
  start   : StartBlock
  station : Station
  length  : Length
  marks   : Marks
  twist   : Twist
  knot    : Knot
  map     : RunMap
  former  : Former
  banks   : Vector Bank 4
  pace    : Pace
  ply     : Ply
  pending : List Instr
  deriving DecidableEq, Repr

/-- Faults: the part reports every irregularity in its own state and answers, and no rule of the spec
stops it, so no command raises a fault and the type has no constructor. -/
inductive Fault where
  deriving DecidableEq, Repr

/-- Refusals. `notModelled` would be raised by `exec` alone, for a command that has no meaning yet (safe:
the run stops); every command has one, so no arm raises it. -/
inductive Refusal where
  | notModelled (mnemonic : String)
  deriving DecidableEq, Repr

/-! ## Block updates -/

namespace State

def setStart (s : State) (b : StartBlock) : State := { s with start := b }
def setStation (s : State) (b : Station) : State := { s with station := b }
def setLength (s : State) (b : Length) : State := { s with length := b }
def setMarks (s : State) (b : Marks) : State := { s with marks := b }
def setTwist (s : State) (b : Twist) : State := { s with twist := b }
def setKnot (s : State) (b : Knot) : State := { s with knot := b }
def setMap (s : State) (b : RunMap) : State := { s with map := b }
def setFormer (s : State) (b : Former) : State := { s with former := b }
def setBanks (s : State) (b : Vector Bank 4) : State := { s with banks := b }
def setPace (s : State) (b : Pace) : State := { s with pace := b }
def setPly (s : State) (b : Ply) : State := { s with ply := b }
def setPending (s : State) (b : List Instr) : State := { s with pending := b }

end State

/-! ## Values after a cold reset -/

/-- START as a cold reset leaves it: RSTn low, nothing sampled or read (R197). The station number before
the first strap sample is not stated (log entry 2). -/
def StartBlock.reset : StartBlock :=
  { phase := .inReset, number := 0, image := none, attempts := 0, reason := .none, clamped := 0,
    settings := none, bus := [], scl := true, sda := true }

/-- R174. BRK is taken as inactive at power-on (log entry 3). -/
def Station.reset : Station :=
  { state := .start, restartPending := false, answerGone := false, locals := [], peers := [],
    firstCause := none, prevFirst := none, den := false, alm := false, brkActive := false }

/-- R20. -/
def Length.reset : Length :=
  { acc := 0, source := .a, switched := false, degraded := false, la := 0, lb := 0, badSpans := 0,
    lastSlip := 0, dwellCount := 0, dwelling := false }

/-- R20. -/
def Marks.reset : Marks :=
  { counter := 0, next := none, interval := 0, printer := none, mkc := false, mkd := false, skipped := 0 }

/-- R46. Window start, off-run start and S_base have no stated value (log entry 4). -/
def Twist.reset : Twist :=
  { windowOpen := false, pulses := 0, width := 0, windowStart := 0, lastT10 := none, lastD10 := 0,
    lastE := none, lastClass := none, windowCount := 0, offRun := 0, offStart := 0, offMajor := false,
    majorRun := 0, trim := 0, eff10 := none, sBase := 0, sCmd := 0, ownOffer := 0, linkCapstan := 0,
    linkSpindle := 0, link := [], dck := false, dda := false, dlt := false }

/-- R63, R65: results before any row has closed. -/
def RowResult.reset : RowResult :=
  { missing := 0, knotFlag := false, major := false, advance := none, deviation := none,
    meshFlag := false }

/-- R65, R66. -/
def Knot.reset : Knot :=
  { rowOpen := false, rowStart := 0, prevClose := none, counters := Vector.replicate 8 0,
    prevAdvance := none, firstRef := none, last := .reset, knotRun := 0, knotStart := 0,
    knotMajor := false, meshRun := 0, meshStart := 0, overcount := Vector.replicate 8 0,
    rowsClosed := 0, knotRows := 0, meshRows := 0 }

/-- R88. -/
def RunMap.reset : RunMap := { entries := [], dropped := 0, evicted := 0 }

/-- R114. -/
def Former.reset : Former :=
  { table := [], nextNumber := 1, cuts := [], cutHigh := false, reportsLost := 0, cutsRefused := 0 }

/-- R116: an EMPTY bank with no page written. -/
def Bank.reset : Bank := { state := .empty, twist := none, knot := none, package := none }

/-- An unused listen entry with the runtime fields of R128. Its settings, which no rule states for an entry
after reset or one unused, are the model's (log entry 58). -/
def ListenEntry.reset : ListenEntry :=
  { status := .unused, number := 0, role := .feed, takeUp := 1000, path := 0, follow := .hard,
    weight := 0, lastReport := none, staleCount := 0, stale := true }

/-- R150. -/
def Pace.reset : Pace :=
  { listen := Vector.replicate 6 .reset, listenFaults := 0, feedOffer := 0, takeOffer := 0,
    target := 0, run := 0, period := 0, arrivals := [], nextAccept := 0, arrivalsDropped := 0,
    handoffsIgnored := 0 }

/-- R196. -/
def Ply.reset : Ply :=
  { isOn := false, seenIdle := false, idle := 0, queue := [], paceWaiting := none, paceFlight := none,
    hold := false, access := none, lte := false, wire := [], lineErrors := 0, numberClash := 0, asksDropped := 0,
    collisions := 0, collisionDrops := 0, queueDrops := 0, firstError := none, placeHeld := false }

/-- The part right after a cold reset, in reset with RSTn low and no command waiting (R197). -/
def State.reset : State :=
  { start := .reset, station := .reset, length := .reset, marks := .reset, twist := .reset,
    knot := .reset, map := .reset, former := .reset, banks := Vector.replicate 4 .reset,
    pace := .reset, ply := .reset, pending := [] }

end Sys2Proof.Machine
end

