-- ==== Sys2Proof/Machine/Bytes.lean ====
section
/-!
DEFINITION. Whole-number helpers (saturating counts, clamps), the byte order of payloads, the frame check
and the codes of the named values (R176, R177).
-/

namespace Sys2Proof.Machine

/-- Add 1 to a count that stays at `top` once reached. -/
def sat (top n : Nat) : Nat := min top (n + 1)

/-- Add to a count that stays at `top` once reached. -/
def satAdd (top n k : Nat) : Nat := min top (n + k)

/-- Replaced by `lo` if below, by `hi` if above, otherwise kept (introduction, section 7). -/
def clampNat (lo hi v : Nat) : Nat := max lo (min hi v)

/-- `clampNat` for quantities that may be negative. -/
def clampInt (lo hi v : Int) : Int := max lo (min hi v)

/-- A no or yes as a number. -/
def flag (b : Bool) : Nat := if b then 1 else 0

/-- The same change made to every entry of a table, spelled entry by entry. -/
def mapTable (f : α → α) (table : Vector α n) : Vector α n := Vector.ofFn (fun i => f (table.get i))

/-! ## Byte order -/

/-- `n` bytes of an unsigned field, high byte first (R177). -/
def be : Nat → Nat → List Byte
  | 0, _ => []
  | n + 1, v => BitVec.ofNat 8 (v / 256 ^ n) :: be n v

/-- `n` bytes of a signed field, two's complement, high byte first (R177). -/
def beInt (n : Nat) (v : Int) : List Byte := be n (v % (256 ^ n : Int)).toNat

/-- The number a run of bytes spells, high byte first. -/
def unbe (bs : List Byte) : Nat := bs.foldl (fun acc b => acc * 256 + b.toNat) 0

/-- The signed number a run of bytes spells. -/
def unbeInt (bs : List Byte) : Int :=
  if unbe bs * 2 < 256 ^ bs.length then (unbe bs : Int) else (unbe bs : Int) - (256 ^ bs.length : Int)

/-- `len` bytes from offset `off`. -/
def slice (off len : Nat) (bs : List Byte) : List Byte := (bs.drop off).take len

/-- The unsigned field of `len` bytes at offset `off`. -/
def field (off len : Nat) (bs : List Byte) : Nat := unbe (slice off len bs)

/-- One byte as a list. -/
def byte (v : Nat) : List Byte := be 1 v

/-! ## The frame check (R176) -/

/-- One bit into the check register, polynomial x^16 + x^12 + x^5 + 1. -/
def checkBit (r : Check) (bit : Bool) : Check :=
  let shifted := r <<< 1
  if r.msb != bit then shifted ^^^ 0x1021#16 else shifted

/-- The bits of a byte, most significant first. -/
def bitsOf (b : Byte) : List Bool :=
  [b.getLsbD 7, b.getLsbD 6, b.getLsbD 5, b.getLsbD 4, b.getLsbD 3, b.getLsbD 2, b.getLsbD 1, b.getLsbD 0]

/-- The check over a run of bytes, register preset to all ones, no final inversion. -/
def checkOf (bs : List Byte) : Check :=
  bs.foldl (fun r b => (bitsOf b).foldl checkBit r) 0xFFFF#16

/-- A whole frame: header, payload and check (R176). `top` is bits 7..4 of byte 0. -/
def frameBytes (top : BitVec 4) (kind : BitVec 4) (sender dest : Byte) (payload : List Byte) : List Byte :=
  let body := (top ++ kind) :: sender :: dest :: BitVec.ofNat 8 payload.length :: payload
  body ++ be 2 (checkOf body).toNat

/-! ## Codes of named values (R177) -/

namespace Code

def stationState : StationState → Nat
  | .start => 0 | .held => 1 | .idle => 2 | .ready => 3 | .run => 4 | .easing => 5 | .stopped => 6

/-- The states a PACE report may carry (R178). -/
def reportedState : Nat → Option StationState
  | 2 => some .idle | 3 => some .ready | 4 => some .run | 5 => some .easing | 6 => some .stopped
  | _ => none

def level : Level → Nat
  | .hard => 1 | .soft => 2

def levelOf : Nat → Option Level
  | 1 => some .hard | 2 => some .soft | _ => none

def entryKind : EntryKind → Nat
  | .join => 1 | .twist => 2 | .knot => 3 | .mesh => 4 | .slip => 5 | .dwell => 6 | .stop => 7
  | .change => 8

def entryKindOf : Nat → Option EntryKind
  | 1 => some .join | 2 => some .twist | 3 => some .knot | 4 => some .mesh | 5 => some .slip
  | 6 => some .dwell | 7 => some .stop | 8 => some .change | _ => none

def severity : Severity → Nat
  | .minor => 1 | .major => 2

def severityOf : Nat → Option Severity
  | 1 => some .minor | 2 => some .major | _ => none

def windowClass : WindowClass → Nat
  | .inTol => 1 | .minor => 2 | .major => 3

def bankState : BankState → Nat
  | .empty => 0 | .loaded => 1 | .active => 2 | .staged => 3

def packageType : PackageType → Nat
  | .normal => 1 | .scrap => 2

def packageState : PackageState → Nat
  | .opened => 1 | .closed => 2 | .reported => 3

def reportState : Option ReportState → Nat
  | none => 0 | some .queued => 1 | some .unsent => 2

def grade : Option Grade → Nat
  | none => 0 | some .first => 1 | some .second => 2 | some .scrap => 3

def closeReason : Option CloseReason → Nat
  | none => 0 | some .length => 1 | some .joinLimit => 2 | some .cutOut => 3 | some .change => 4
  | some .endRun => 5

def cutPurpose : CutPurpose → Nat
  | .packageEnd => 1 | .scrapStart => 2 | .scrapEnd => 3 | .change => 4

def knotMode : KnotMode → Nat
  | .any => 1 | .all => 2

def meshRef : MeshRef → Nat
  | .first => 1 | .prev => 2

def source : Source → Nat
  | .a => 1 | .b => 2

def listenRole : ListenRole → Nat
  | .feed => 1 | .take => 2

def machineKind : MachineKind → Nat
  | .laying => 1 | .netting => 2 | .plain => 3

def startReason : StartReason → Nat
  | .none => 0 | .noAck => 1 | .badTag => 2 | .badSum => 3 | .straps => 4

def lineError : LineError → Nat
  | .length => 1 | .check => 2 | .kind => 3 | .size => 4 | .address => 5

end Code

/-- The set byte or bytes with the members of `l` (R177), as a number. -/
def setOf (l : List Nat) : Nat := l.foldl (fun acc i => acc ||| 2 ^ i) 0

end Sys2Proof.Machine
end

