-- ==== Sys2Proof/Machine/Flags.lean ====
section
/-!
DEFINITION. The cause set (section 8.2) and the other standing conditions the blocks test: which states
count pulses, which drive the machine, what the set holds and which cause is in service.
-/

namespace Sys2Proof.Machine

/-- A run exists: READY, RUN, EASING or STOPPED. Pulses are counted (R1), the map takes offers (R70) and
causes are taken (R161) in these states alone. -/
def StationState.inRun : StationState → Bool
  | .ready | .run | .easing | .stopped => true
  | .start | .held | .idle => false

/-- The drive is enabled in RUN and EASING (R159). -/
def StationState.driven : StationState → Bool
  | .run | .easing => true
  | _ => false

/-- The states in which PACE reports are built (R130): every state but START and HELD. -/
def StationState.reports : StationState → Bool
  | .start | .held => false
  | _ => true

/-- Rank of a local cause in the cause set table. -/
def LocalCause.rank : LocalCause → Nat
  | .brk => 1 | .localStop => 2 | .requestStop => 4 | .twistLimit => 6 | .knotRun => 7 | .slipLost => 8
  | .handoffLost => 9 | .mapFull => 10 | .packageDoff => 11 | .runLimit => 12 | .peerOverflow => 13

/-- Level of a local cause. -/
def LocalCause.level : LocalCause → Level
  | .brk | .localStop => .hard
  | _ => .soft

/-- Rank of a cause; a peer halt record ranks 3 at HARD and 5 at SOFT. -/
def Cause.rank : Cause → Nat
  | .loc c => c.rank
  | .peerHalt .hard => 3
  | .peerHalt .soft => 5

/-- Level of a cause. -/
def Cause.level : Cause → Level
  | .loc c => c.level
  | .peerHalt l => l

/-- The cause set holds nothing. -/
def Station.setEmpty (st : Station) : Bool := st.locals.isEmpty && st.peers.isEmpty

/-- A HARD cause is held. -/
def Station.hardHeld (st : Station) : Bool :=
  st.locals.any (fun c => c.level == .hard) || st.peers.any (fun p => p.level == .hard)

/-- The causes held, with their origins: local causes under this station's number `own`, then the peer
records in order of taking. -/
def Station.held (own : Nat) (st : Station) : List HeldCause :=
  st.locals.map (fun c => ⟨.loc c, own⟩) ++ st.peers.map (fun p => ⟨.peerHalt p.level, p.origin⟩)

/-- Of two causes the one of lower rank, the first of equals. -/
def HeldCause.lower (a : HeldCause) : Option HeldCause → HeldCause
  | none => a
  | some b => if a.cause.rank ≤ b.cause.rank then a else b

/-- The first cause of lowest rank of a list. -/
def lowestRank : List HeldCause → Option HeldCause
  | [] => none
  | a :: rest => some (a.lower (lowestRank rest))

/-- The in-service cause (R165): the held cause of lowest rank, and among peer records of one rank the one
taken first. -/
def Station.inService (own : Nat) (st : Station) : Option HeldCause := lowestRank (st.held own)

/-- A cause's code on the line, 0 for none (R177). -/
def Code.cause : Option HeldCause → Nat
  | none => 0
  | some h => h.cause.rank

/-- The origin byte shown with a cause, 0 for none. -/
def Code.origin : Option HeldCause → Nat
  | none => 0
  | some h => h.origin

/-- Record a cause in the first cause if the set was empty, and light ALM (R160, R165). -/
def Station.noteTaken (h : HeldCause) (st : Station) : Station :=
  { st with firstCause := if st.setEmpty then some h else st.firstCause, alm := true }

/-- A local cause enters the set. -/
def Station.takeLocal (own : Nat) (c : LocalCause) (st : Station) : Station :=
  let noted := st.noteTaken ⟨.loc c, own⟩
  { noted with locals := st.locals ++ [c] }

/-- A peer halt record enters the set. -/
def Station.takePeer (p : PeerHalt) (st : Station) : Station :=
  let noted := st.noteTaken ⟨.peerHalt p.level, p.origin⟩
  { noted with peers := st.peers ++ [p] }

/-- The set has become empty (R165): the first cause moves to the previous first cause, ALM goes off. -/
def Station.noteEmptied (st : Station) : Station :=
  { st with prevFirst := st.firstCause, firstCause := none, alm := false }

/-- DEN follows the station state at the transition itself (R159). -/
def Station.enter (target : StationState) (st : Station) : Station :=
  { st with state := target, den := target.driven }

end Sys2Proof.Machine
end

