-- ==== Sys2Proof/Machine/Operands.lean ====
section
/-!
DEFINITION. What a command's effect reads: views of the state (run position, configuration values, bank
pages, open package), the coding and clamping of recipe pages (R117, R118, R195), and the payloads of
received frames (R178 to R180).
-/

namespace Sys2Proof.Machine

/-! ## Views of the state -/

/-- Stands for the configuration while none is taken: START, and HELD after checks 1 to 3 (R200). -/
def Settings.absent : Settings :=
  { kind := .plain, forming := false, stepA := 0, stepB := 0, ppr := 0, smax := 0, ownLimit := 0,
    rampUp := 0, rampDown := 0, stopRamp := 0, pacePeriod := 0, staleTime := 0, dwellTime := 0,
    slipSpan := 0, slipTol := 0, slipPersist := 0, cutterOffset := 0, retention := 0, burst := 1,
    startBank := 0 }

/-- Stand for a page that is not in a bank's written set; a bank in force has all three (R115). -/
def TwistPage.absent : TwistPage :=
  { target10 := 5, tolM := 5, tolX := 5, persistence := 1, gain := 0, lw := 200 }

def KnotPage.absent : KnotPage :=
  { sections := 1, expected := 1, threshold := 1, mode := .any, duration := 1, majorRow := 1,
    runLimit := 1, meshTol := 10, meshRef := .first }

def PackagePage.absent : PackagePage :=
  { target := 10000, minimum := 500, maximum := 1000, margin := 0, planDistance := 1000, maxJoins := 0,
    minorAllowance := 0, cutOutMajor := false, haltAtClose := false, markInterval := 0,
    productCode := 0 }

namespace State

/-- The configuration values in force. -/
def cfg (s : State) : Settings := s.start.settings.getD .absent

/-- This station's number. -/
def own (s : State) : Nat := s.start.number

/-- Run position in mm (R1): the accumulator divided by 1000, rounded down. -/
def pos (s : State) : Nat := s.length.acc / 1000

/-- Wheel step of the active source. -/
def activeStep (s : State) : Nat :=
  match s.length.source with
  | .a => s.cfg.stepA
  | .b => s.cfg.stepB

/-- The forming flag. -/
def forming (s : State) : Bool := s.cfg.forming

def isLaying (s : State) : Bool := s.cfg.kind == .laying
def isNetting (s : State) : Bool := s.cfg.kind == .netting

/-- A station state in which pulses are counted. -/
def inRun (s : State) : Bool := s.station.state.inRun

/-- Bank `k`; EMPTY outside 0..3. -/
def bank (s : State) (k : Nat) : Bank := s.banks.toList.getD k .reset

/-- Number of the first bank in a state. -/
def bankIn (s : State) (b : BankState) : Option Nat :=
  s.banks.toList.findIdx? (fun x => x.state == b)

/-- Number of the ACTIVE bank, or none. -/
def activeBank (s : State) : Option Nat := s.bankIn .active

/-- Number of the STAGED bank, or none. -/
def stagedBank (s : State) : Option Nat := s.bankIn .staged

/-- Replace bank `k`. -/
def setBank (s : State) (k : Nat) (b : Bank) : State :=
  if h : k < 4 then s.setBanks (s.banks.set k b) else s

/-- Twist page of the ACTIVE bank. -/
def twistPage (s : State) : TwistPage :=
  match s.activeBank with
  | some k => (s.bank k).twist.getD .absent
  | none => .absent

/-- Knot page of the ACTIVE bank. -/
def knotPage (s : State) : KnotPage :=
  match s.activeBank with
  | some k => (s.bank k).knot.getD .absent
  | none => .absent

/-- Package page of bank `k`. -/
def packagePage (s : State) (k : Nat) : PackagePage := (s.bank k).package.getD .absent

/-- Package page of the ACTIVE bank. -/
def activePackagePage (s : State) : PackagePage :=
  match s.activeBank with
  | some k => s.packagePage k
  | none => .absent

/-- The OPEN record of the package table. -/
def openPackage (s : State) : Option PackageRecord := s.former.table.find? (fun r => r.state == .opened)

/-- The peer of a station number: the listen entry taken under it (R127). -/
def peerOf (s : State) (n : Nat) : Option ListenEntry :=
  s.pace.listen.toList.find? (fun e => e.status == .peer && e.number == n)

/-- The peers in the order of the listen table. -/
def peers (s : State) : List ListenEntry := s.pace.listen.toList.filter (fun e => e.status == .peer)

/-- The open TWIST, KNOT or MESH entry of the map (R69). -/
def openEntry (s : State) (k : EntryKind) : Option MapEntry :=
  s.map.entries.find? (fun e => e.isOpen && e.kind == k)

end State

/-! ## Values in force of the package former (R89) -/

/-- min, in mm. -/
def PackagePage.minLength (p : PackagePage) : Nat := p.target * p.minimum / 1000

/-- max, in mm. -/
def PackagePage.maxLength (p : PackagePage) : Nat := p.target * p.maximum / 1000

/-- X: the lesser of the exclusion margin and the cutter offset. -/
def PackagePage.x (p : PackagePage) (offset : Nat) : Nat := min p.margin offset

/-- The plan distance in force: at least X. -/
def PackagePage.planAhead (p : PackagePage) (offset : Nat) : Nat := max p.planDistance (p.x offset)

/-- The end of a map entry (R67). -/
def MapEntry.endPos (e : MapEntry) : Nat := e.position + e.extent

/-- Evictable: closed, MINOR, and neither JOIN nor CHANGE (R67). -/
def MapEntry.evictable (e : MapEntry) : Bool :=
  !e.isOpen && e.severity == .minor && e.kind != .join && e.kind != .change

/-- A blocker: a JOIN or a MAJOR entry (R89). -/
def MapEntry.blocker (e : MapEntry) : Bool := e.kind == .join || e.severity == .major

/-- The entry meets the window of a cut position `c` (R89). -/
def MapEntry.meets (e : MapEntry) (c x : Int) : Bool :=
  decide ((e.position : Int) < c + x) && decide ((e.endPos : Int) > c - x)

/-! ## Recipe pages (R117, R118, R195) -/

/-- A field clamped to its range, and how many fields that changed. -/
def clampCount (lo hi v : Nat) : Nat × Nat :=
  (clampNat lo hi v, flag (decide (clampNat lo hi v ≠ v)))

/-- A page as read from its bytes: the clamped page, the number of fields changed by clamping, and the
number of choice fields whose code names no choice (those stand at R201's replacement). -/
structure PageRead (α : Type) where
  page    : α
  clamped : Nat
  badCode : Nat
  deriving DecidableEq, Repr

/-- Bytes of each page (R195). -/
def pageBytes : Nat → Nat
  | 0 => 10 | 1 => 11 | _ => 20

/-- Twist page from its 10 bytes; tolX is clamped against the stored tolM. -/
def readTwistPage (bs : List Byte) : PageRead TwistPage :=
  let target := clampCount 5 20000 (field 0 2 bs)
  let tolM := clampCount 5 200 (field 2 2 bs)
  let tolX := clampCount tolM.1 400 (field 4 2 bs)
  let persistence := clampCount 1 8 (field 6 1 bs)
  let gain := clampCount 0 15 (field 7 1 bs)
  let lw := clampCount 200 5000 (field 8 2 bs)
  { page := { target10 := target.1, tolM := tolM.1, tolX := tolX.1, persistence := persistence.1,
              gain := gain.1, lw := lw.1 },
    clamped := target.2 + tolM.2 + tolX.2 + persistence.2 + gain.2 + lw.2,
    badCode := 0 }

/-- Knot page from its 11 bytes; a mode or mesh reference of no valid code stands as ANY or FIRST. -/
def readKnotPage (bs : List Byte) : PageRead KnotPage :=
  let sections := clampCount 1 8 (field 0 1 bs)
  let expected := clampCount 1 250 (field 1 1 bs)
  let threshold := clampCount 1 15 (field 2 1 bs)
  let mode := field 3 1 bs
  let duration := clampCount 1 4 (field 4 1 bs)
  let majorRow := clampCount 1 255 (field 5 1 bs)
  let runLimit := clampCount 1 1000 (field 6 2 bs)
  let meshTol := clampCount 10 300 (field 8 2 bs)
  let meshRef := field 10 1 bs
  { page := { sections := sections.1, expected := expected.1, threshold := threshold.1,
              mode := if mode = 2 then .all else .any, duration := duration.1,
              majorRow := majorRow.1, runLimit := runLimit.1, meshTol := meshTol.1,
              meshRef := if meshRef = 2 then .prev else .first },
    clamped := sections.2 + expected.2 + threshold.2 + duration.2 + majorRow.2 + runLimit.2 + meshTol.2,
    badCode := flag (decide (mode ≠ 1 ∧ mode ≠ 2)) + flag (decide (meshRef ≠ 1 ∧ meshRef ≠ 2)) }

/-- Package page from its 20 bytes; a no or yes of no valid code stands as no. -/
def readPackagePage (bs : List Byte) : PageRead PackagePage :=
  let target := clampCount 10000 20000000 (field 0 4 bs)
  let minimum := clampCount 500 1000 (field 4 2 bs)
  let maximum := clampCount 1000 1500 (field 6 2 bs)
  let margin := clampCount 0 10000 (field 8 2 bs)
  let planDistance := clampCount 1000 100000 (field 10 3 bs)
  let maxJoins := clampCount 0 4 (field 13 1 bs)
  let minorAllowance := clampCount 0 8 (field 14 1 bs)
  let cutOut := field 15 1 bs
  let halt := field 16 1 bs
  let mark := clampCount 0 100 (field 17 1 bs)
  { page := { target := target.1, minimum := minimum.1, maximum := maximum.1, margin := margin.1,
              planDistance := planDistance.1, maxJoins := maxJoins.1,
              minorAllowance := minorAllowance.1, cutOutMajor := decide (cutOut = 1),
              haltAtClose := decide (halt = 1), markInterval := mark.1,
              productCode := field 18 2 bs },
    clamped := target.2 + minimum.2 + maximum.2 + margin.2 + planDistance.2 + maxJoins.2
      + minorAllowance.2 + mark.2,
    badCode := flag (decide (cutOut > 1)) + flag (decide (halt > 1)) }

/-- The bytes of a stored twist page. -/
def TwistPage.bytes (p : TwistPage) : List Byte :=
  be 2 p.target10 ++ be 2 p.tolM ++ be 2 p.tolX ++ byte p.persistence ++ byte p.gain ++ be 2 p.lw

/-- The bytes of a stored knot page. -/
def KnotPage.bytes (p : KnotPage) : List Byte :=
  byte p.sections ++ byte p.expected ++ byte p.threshold ++ byte (Code.knotMode p.mode)
    ++ byte p.duration ++ byte p.majorRow ++ be 2 p.runLimit ++ be 2 p.meshTol
    ++ byte (Code.meshRef p.meshRef)

/-- The bytes of a stored package page. -/
def PackagePage.bytes (p : PackagePage) : List Byte :=
  be 4 p.target ++ be 2 p.minimum ++ be 2 p.maximum ++ be 2 p.margin ++ be 3 p.planDistance
    ++ byte p.maxJoins ++ byte p.minorAllowance ++ byte (flag p.cutOutMajor)
    ++ byte (flag p.haltAtClose) ++ byte p.markInterval ++ be 2 p.productCode

/-- The stored page `page` of a bank, coded by R195; none when it is not in the written set. -/
def Bank.pageBytes? (b : Bank) : Nat → Option (List Byte)
  | 0 => b.twist.map TwistPage.bytes
  | 1 => b.knot.map KnotPage.bytes
  | 2 => b.package.map PackagePage.bytes
  | _ => none

/-- The written set as members 0..2 (R193, page 11). -/
def Bank.writtenSet (b : Bank) : List Nat :=
  (if b.twist.isSome then [0] else []) ++ (if b.knot.isSome then [1] else [])
    ++ (if b.package.isSome then [2] else [])

/-- A bank that was EMPTY becomes LOADED when its written set holds all three pages (R117). -/
def Bank.complete (b : Bank) : Bank :=
  if b.state == .empty && b.twist.isSome && b.knot.isSome && b.package.isSome
  then { b with state := .loaded } else b

/-! ## Payloads of received frames -/

/-- The report of a PACE payload, none when its state or a cause code is not valid (R178). -/
def readPace (bs : List Byte) : Option PaceReport :=
  match Code.reportedState (field 0 1 bs % 16) with
  | none => none
  | some st =>
    if field 1 1 bs > 13 ∨ field 3 1 bs > 13 then none
    else some
      { state := st, activeBank := field 0 1 bs / 16 % 4, serviceCause := field 1 1 bs,
        serviceOrigin := field 2 1 bs, firstCause := field 3 1 bs, firstOrigin := field 4 1 bs,
        ownOffer := field 5 2 bs, feedOffer := field 7 2 bs, takeOffer := field 9 2 bs,
        runPace := field 11 2 bs, lastD10 := unbeInt (slice 13 3 bs), windowCount := field 16 2 bs,
        productCode := field 18 2 bs, position := field 20 4 bs }

/-- A station number 1..62. -/
def isStation (n : Nat) : Bool := decide (1 ≤ n) && decide (n ≤ 62)

/-- A HALT payload: origin and level, none when either is not valid (R180). -/
def readHalt (bs : List Byte) : Option PeerHalt :=
  match Code.levelOf (field 1 1 bs) with
  | none => none
  | some l => if isStation (field 0 1 bs) then some ⟨field 0 1 bs, l⟩ else none

/-- The origin of a RESUME or GO payload, none outside 1..62 (R180). -/
def readOrigin (bs : List Byte) : Option Nat :=
  if isStation (field 0 1 bs) then some (field 0 1 bs) else none

/-- What a valid HANDOFF payload carries (R179). -/
structure HandoffRead where
  kind     : EntryKind
  origin   : Nat
  severity : Severity
  count    : Nat
  extent   : Nat
  travel   : Int
  deriving DecidableEq, Repr

/-- A HANDOFF payload, none when a field fails R138. -/
def readHandoff (bs : List Byte) : Option HandoffRead :=
  match Code.entryKindOf (field 0 1 bs), Code.severityOf (field 2 1 bs) with
  | some k, some sev =>
    if isStation (field 1 1 bs) && decide (1 ≤ field 3 1 bs) then
      some { kind := k, origin := field 1 1 bs, severity := sev, count := field 3 1 bs,
             extent := field 4 4 bs, travel := unbeInt (slice 8 4 bs) }
    else none
  | _, _ => none

/-- The PACE payload of a report (R178). -/
def PaceReport.payload (r : PaceReport) : List Byte :=
  byte (r.activeBank * 16 + Code.stationState r.state) ++ byte r.serviceCause ++ byte r.serviceOrigin
    ++ byte r.firstCause ++ byte r.firstOrigin ++ be 2 r.ownOffer ++ be 2 r.feedOffer
    ++ be 2 r.takeOffer ++ be 2 r.runPace ++ beInt 3 r.lastD10 ++ be 2 r.windowCount
    ++ be 2 r.productCode ++ be 4 r.position

end Sys2Proof.Machine
end

