-- ==== Sys2Proof/Machine/Ops.lean ====
section
/-!
DEFINITION. The shared operations of the part: the PACE report and its slot (R129, R130), queuing a frame
(R185), reporting a frame's drop to its owner (R183), entering a station state, taking a SOFT local cause
(R153, R161, R169), and what follows when the cause set empties (R154, R156).
-/

namespace Sys2Proof.Machine

/-! ## The PACE report -/

/-- The report built from the station's own values as they stand (R129, R126). -/
def buildReport (s : State) : PaceReport :=
  let service := s.station.inService s.own
  { state := s.station.state
    activeBank := s.activeBank.getD 0
    serviceCause := Code.cause service
    serviceOrigin := Code.origin service
    firstCause := Code.cause s.station.firstCause
    firstOrigin := Code.origin s.station.firstCause
    ownOffer := s.twist.ownOffer
    feedOffer := s.pace.feedOffer
    takeOffer := s.pace.takeOffer
    runPace := s.pace.run
    lastD10 := if s.isLaying then s.twist.lastD10 else 0
    windowCount := if s.isLaying then s.twist.windowCount else 0
    productCode := if s.activeBank.isSome then s.activePackagePage.productCode else 0
    position := s.pos }

/-- Refresh of the pace slot (R130, R186): a newly built report replaces any that waits, and the period
countdown is loaded. No report is built in START and HELD. -/
def refreshPace (s : State) : State :=
  if s.station.state.reports then
    (s.setPly { s.ply with paceWaiting := some ⟨buildReport s, 0⟩ }).setPace
      { s.pace with period := s.cfg.pacePeriod }
  else s

/-! ## The transmit queue -/

/-- HALT, RESUME and GO are URGENT; the other kinds are NORMAL (R176). -/
def TxBody.urgent : TxBody → Bool
  | .halt _ _ | .resume _ | .go _ => true
  | .handoff _ | .pkg _ | .answer _ _ _ => false

/-- Takes the last element that satisfies `p` out of a list. -/
def takeLast (p : α → Bool) : List α → Option (α × List α)
  | [] => none
  | x :: xs =>
    match takeLast p xs with
    | some (y, ys) => some (y, x :: ys)
    | none => if p x then some (x, xs) else none

/-- Marks the report of a CLOSED record of the given number (R93). -/
def Former.markReport (n : Nat) (r : ReportState) (f : Former) : Former :=
  { f with table := f.table.map (fun rec =>
      if rec.number = n ∧ rec.state = .closed then { rec with report := some r } else rec) }

/-- Tells a frame's owner that it was dropped (R183): a PKG's record becomes UNSENT, and the ANSWER to an
accepted RESTART counts as gone (R158). Other kinds are not reported. -/
def reportDrop (b : TxBody) (s : State) : State :=
  match b with
  | .pkg p => s.setFormer (s.former.markReport p.number .unsent)
  | .answer _ _ true => s.setStation { s.station with answerGone := true }
  | _ => s

/-- Places of the queue open to a frame: one is held for the ANSWER while a request is performed (R191). -/
def Ply.room (p : Ply) : Nat := if p.placeHeld then Config.queueCapacity - 1 else Config.queueCapacity

/-- Queue a frame, weighing it by class when the queue is full (R185). A frame that is dropped, the new one
or the youngest NORMAL frame not in flight, is counted and reported to its owner. -/
def enqueue (b : TxBody) (s : State) : State :=
  let new : QFrame := { body := b, collisions := 0, inFlight := false }
  if s.ply.queue.length < s.ply.room then
    s.setPly { s.ply with queue := s.ply.queue ++ [new] }
  else if b.urgent then
    match takeLast (fun f => !f.body.urgent && !f.inFlight) s.ply.queue with
    | some (victim, rest) =>
      reportDrop victim.body
        (s.setPly { s.ply with queue := rest ++ [new], queueDrops := sat Config.count16 s.ply.queueDrops })
    | none =>
      reportDrop b (s.setPly { s.ply with queueDrops := sat Config.count16 s.ply.queueDrops })
  else
    reportDrop b (s.setPly { s.ply with queueDrops := sat Config.count16 s.ply.queueDrops })

/-! ## Station state -/

/-- Passes to a station state, DEN with it (R159), and refreshes the pace slot (R130). -/
def changeState (target : StationState) (s : State) : State :=
  refreshPace (s.setStation (s.station.enter target))

/-- Leaving RUN clears dwelling without a pulse (R11); the end of a dwell makes the previous close absent
(R61). -/
def clearDwell (s : State) : State :=
  if s.length.dwelling then
    (s.setLength { s.length with dwelling := false }).setKnot { s.knot with prevClose := none }
  else s

/-- The dwell countdown is loaded with the dwell time in ticks (R9). -/
def loadDwell (s : State) : State :=
  s.setLength { s.length with dwellCount := s.cfg.dwellTime * 10 }

/-- Entry to STOPPED from READY: steps 1 and 5 of R155. -/
def stopFromReady (s : State) : State :=
  changeState .stopped ((clearDwell s).setPace { (clearDwell s).pace with run := 0 })

/-- RUN to EASING (R153): the window, the row and the run pace go on. -/
def ease (s : State) : State := changeState .easing (clearDwell s)

/-- EASING to RUN (R154): the run pace is kept and the dwell countdown is loaded afresh. -/
def resumeRun (s : State) : State := changeState .run (loadDwell s)

/-! ## Causes -/

/-- A local cause taken in READY, RUN or EASING is announced by HALT with this station's number (R169). -/
def announce (c : LocalCause) (s : State) : State :=
  match s.station.state with
  | .ready | .run | .easing => enqueue (.halt s.own c.level) s
  | _ => s

/-- What taking a SOFT cause does to the station state (R153). -/
def actSoft (s : State) : State :=
  match s.station.state with
  | .ready => stopFromReady s
  | .run => if s.station.hardHeld then s else ease s
  | _ => s

/-- Raise a SOFT local cause: taken if a run exists and it is not held (R161). -/
def raiseSoft (c : LocalCause) (s : State) : State :=
  if s.inRun && !s.station.locals.contains c then
    actSoft (announce c (s.setStation (s.station.takeLocal s.own c)))
  else s

/-- What follows a removal that may have emptied the set: the first cause moves on, ALM goes off, an EASING
station returns to RUN and a STOPPED one to READY (R154, R156, R160, R165). -/
def settleRemoval (s : State) : State :=
  if s.station.setEmpty then
    let s1 := s.setStation s.station.noteEmptied
    match s1.station.state with
    | .easing => resumeRun s1
    | .stopped => changeState .ready s1
    | _ => s1
  else s

end Sys2Proof.Machine
end

