-- ==== Sys2Proof/Machine/RunMap.lean ====
section
/-!
DEFINITION. The run map (chapter 4): insertion by position, the capacity rules, closing with its hand-off,
extension of open entries, and retention. These operations do not tell the package former; the former's
own file adds that (R84).
-/

namespace Sys2Proof.Machine

/-- The offer of a local point entry (R71, R73). -/
def MapEntry.offerOf (kind : EntryKind) (position : Nat) : MapEntry :=
  { kind, origin := 0, position, extent := 0, severity := .minor, count := 1, isOpen := false,
    forwarded := false, lastLocal := false }

/-- Insertion by position (R68): after every entry at or below the new one's position. -/
def insertEntry (e : MapEntry) : List MapEntry → List MapEntry
  | [] => [e]
  | x :: xs => if x.position ≤ e.position then x :: insertEntry e xs else e :: x :: xs

/-- Takes the first element that satisfies `p` out of a list. -/
def takeFirst (p : α → Bool) : List α → Option (α × List α)
  | [] => none
  | x :: xs =>
    if p x then some (x, xs)
    else match takeFirst p xs with
      | some (y, ys) => some (y, x :: ys)
      | none => none

/-- What the map does with an offer (R75 to R77). -/
inductive OfferResult where
  | inserted (entries : List MapEntry)
  | evicting (entries : List MapEntry)
  | refused
  | refusedFull
  deriving DecidableEq, Repr

/-- The capacity rules R75 to R77 on the entries held. -/
def weighOffer (e : MapEntry) (entries : List MapEntry) : OfferResult :=
  if entries.length < Config.mapCapacity then .inserted (insertEntry e entries)
  else if e.severity == .minor && e.kind != .join && e.kind != .change then .refused
  else
    match takeFirst MapEntry.evictable entries with
    | some (_, rest) => .evicting (insertEntry e rest)
    | none => .refusedFull

/-- The HANDOFF copy of a closing entry for one TAKE peer (R80). -/
def handoffOf (own dest : Nat) (e : MapEntry) : HandoffCopy :=
  { dest, kind := e.kind, origin := if e.origin = 0 then own else e.origin, severity := e.severity,
    count := e.count, extent := e.extent, entryEnd := e.endPos, travel := 0 }

/-- The hand-off of a closing entry: one frame for each TAKE peer, in listen table order (R80). -/
def handOff (e : MapEntry) (s : State) : State :=
  (s.peers.filter (fun p => p.role == .take)).foldl
    (fun acc p => enqueue (.handoff (handoffOf s.own p.number e)) acc) s

/-- Inserts an offered entry's list and makes the hand-off of an entry closed at insertion (R79, R81). -/
def placeEntry (e : MapEntry) (entries : List MapEntry) (evicted : Bool) (s : State) : State :=
  let s1 := s.setMap { s.map with
    entries, evicted := if evicted then sat Config.count16 s.map.evicted else s.map.evicted }
  if e.isOpen then s1 else handOff e s1

/-- The map counts an offer it did not take. -/
def countDropped (s : State) : State :=
  s.setMap { s.map with dropped := sat Config.count16 s.map.dropped }

/-- Offers an entry to the map; the second part is the entry as inserted, or none when it was refused.
A refusal with nothing to evict raises MAP_FULL (R77). -/
def offerRaw (e : MapEntry) (s : State) : State × Option MapEntry :=
  let entry := { e with forwarded := !e.isOpen }
  match weighOffer entry s.map.entries with
  | .inserted entries => (placeEntry entry entries false s, some entry)
  | .evicting entries => (placeEntry entry entries true s, some entry)
  | .refused => (countDropped s, none)
  | .refusedFull => (raiseSoft .mapFull (countDropped s), none)

/-- The last local JOIN, DWELL or STOP, if it is still in the map. -/
def lastLocal (k : EntryKind) (s : State) : Option MapEntry :=
  s.map.entries.find? (fun e => e.lastLocal && e.kind == k)

/-- Raises the count of the last local entry of a kind: a merge (R72, R73). -/
def mergeLocal (k : EntryKind) (s : State) : State :=
  s.setMap { s.map with entries := s.map.entries.map (fun e =>
    if e.lastLocal && e.kind == k then { e with count := sat Config.count8 e.count } else e) }

/-- Forgets the last local entry of a kind. -/
def forgetLocal (k : EntryKind) (s : State) : State :=
  s.setMap { s.map with entries := s.map.entries.map (fun e =>
    if e.lastLocal && e.kind == k then { e with lastLocal := false } else e) }

/-- Offers a local JOIN, DWELL or STOP at the run position. When the map takes it, it becomes the last
local entry of its kind; when the map refuses it, the reference stays as it was (R71, R73, R76). -/
def offerLocal (k : EntryKind) (s : State) : State × Option MapEntry :=
  let offer := { MapEntry.offerOf k s.pos with lastLocal := true }
  match weighOffer offer s.map.entries with
  | .inserted _ | .evicting _ => offerRaw offer (forgetLocal k s)
  | _ => offerRaw offer s

/-- An open entry extended to end at `endPos`, with a count and, if `major`, an upgrade (R69). Its position
does not change. -/
def MapEntry.extendTo (endPos count : Nat) (major : Bool) (e : MapEntry) : MapEntry :=
  { e with extent := endPos - e.position, count, severity := if major then .major else e.severity }

/-- Extends the open entry of a kind. The second part is the entry when this upgraded it from MINOR to
MAJOR. -/
def extendEntry (k : EntryKind) (endPos count : Nat) (major : Bool) (s : State) : State × Option MapEntry :=
  match s.openEntry k with
  | none => (s, none)
  | some old =>
    (s.setMap { s.map with entries := s.map.entries.map (fun e =>
        if e.isOpen && e.kind == k then e.extendTo endPos count major else e) },
     if major && old.severity == .minor then some (old.extendTo endPos count major) else none)

/-- An entry closed and handed off (R69, R81). -/
def MapEntry.closed (e : MapEntry) : MapEntry := { e with isOpen := false, forwarded := true }

/-- Closes the open entry of a kind and makes its hand-off (R79 to R81). The second part is the entry as
closed. -/
def closeEntry (k : EntryKind) (s : State) : State × Option MapEntry :=
  match s.openEntry k with
  | none => (s, none)
  | some old =>
    (handOff old.closed (s.setMap { s.map with entries := s.map.entries.map (fun e =>
        if e.isOpen && e.kind == k then e.closed else e) }),
     some old.closed)

/-- Retention on a station that does not form packages (R82), at a pulse that found the run position at
`before`: at a saturated run position no further entry leaves (log entry 55). -/
def retain (before : Nat) (s : State) : State :=
  if s.forming || decide (Config.posMax ≤ before) then s
  else s.setMap { s.map with entries := s.map.entries.filter (fun e =>
    e.isOpen || decide (s.pos ≤ e.endPos + s.cfg.retention)) }

end Sys2Proof.Machine
end

