-- ==== Sys2Proof/Machine/Marks.lean ====
section
/-!
DEFINITION. Metre marks (R12 to R16): the counted length, a mark falling due, the printer link and the
restart of the marks.
-/

namespace Sys2Proof.Machine

/-- The decimal digits of a mark number, most significant first (R14). -/
def markDigits (n : Nat) : List Nat :=
  [n / 10000 % 10, n / 1000 % 10, n / 100 % 10, n / 10 % 10, n % 10]

/-- A digit as four bits, most significant first. -/
def digitBits (d : Nat) : List Bool := [d / 8 % 2 == 1, d / 4 % 2 == 1, d / 2 % 2 == 1, d % 2 == 1]

/-- The 20 bits of a mark on MKD (R14). -/
def markBits (n : Nat) : List Bool := (markDigits n).flatMap digitBits

/-- The counted length (R12); none with no open package on a forming station. -/
def countedLength (s : State) : Option Nat :=
  if s.forming then
    s.openPackage.map (fun p => s.pos - s.cfg.cutterOffset - p.startPos)
  else some s.pos

/-- The mark is sent if the link is free and skipped if it is shifting; the counter and the next mark point
advance either way (R13, R14). The pins rest with MKC low and MKD at the last bit sent (log entry 47). -/
def Marks.fallDue (m : Marks) (point : Nat) : Marks :=
  { m with
    printer := if m.printer.isSome then m.printer else some (markBits m.counter)
    mkc := m.printer.isSome && m.mkc
    mkd := if m.printer.isSome then m.mkd else (markBits m.counter).getLastD false
    skipped := if m.printer.isSome then sat Config.count16 m.skipped else m.skipped
    counter := (m.counter + m.interval) % 100000
    next := some (point + m.interval * 1000) }

/-- Tests a counted length against the next mark point (R13). -/
def testMarkAt (len : Nat) (s : State) : State :=
  match s.marks.next with
  | some point => if point ≤ len then s.setMarks (s.marks.fallDue point) else s
  | none => s

/-- Tests the counted length as it stands. -/
def testMark (s : State) : State :=
  match countedLength s with
  | some len => testMarkAt len s
  | none => s

/-- Restart of the marks with an interval in metres (R15). -/
def Marks.restart (interval : Nat) (m : Marks) : Marks :=
  { m with
    interval
    counter := interval % 100000
    next := if interval = 0 then none else some (interval * 1000) }

/-- A bank switch's new interval on a station that does not form packages, at run position `pos` (R16). -/
def Marks.switch (interval pos : Nat) (m : Marks) : Marks :=
  if interval = 0 then { m with interval := 0, next := none }
  else if m.interval = 0 then
    let point := (pos / (interval * 1000) + 1) * (interval * 1000)
    { m with interval, next := some point, counter := point / 1000 % 100000 }
  else { m with interval }

end Sys2Proof.Machine
end

