-- ==== Sys2Proof/Machine/Twist.lean ====
section
/-!
DEFINITION. Twist regulation's arithmetic and its parts that other blocks use (chapter 2): measured twist,
deviation and class, trim, the balanced target, the own offer, the set-point, and opening, discarding and
switching a window.
-/

namespace Sys2Proof.Machine

/-! ## Arithmetic -/

/-- T10 of a window of `p` pulses over `w` micrometres, rounded half up and clamped (R25). -/
def measureT10 (ppr p w : Nat) : Nat :=
  min 65535 ((2 * p * 10000000 + ppr * w) / (2 * ppr * w))

/-- E: the deviation in permille, truncated toward zero and clamped (R26). -/
def deviationE (d10 : Int) (eff10 : Nat) : Int := clampInt (-999) 999 ((d10 * 1000).tdiv eff10)

/-- The class of a window (R27). -/
def classify (tolM tolX : Nat) (e : Int) : WindowClass :=
  if e.natAbs ≤ tolM then .inTol else if e.natAbs ≤ tolX then .minor else .major

/-- The new trim at a window close in RUN (R33). -/
def nextTrim (trim e : Int) (gain : Nat) : Int := clampInt (-200) 200 (trim - (e * gain).tdiv 16)

/-- The effective target from target10 and the balancing feeders' deviations and weights (R36). -/
def balance (target10 : Nat) (feeders : List (Int × Int)) : Nat :=
  let shift : Int :=
    if feeders.isEmpty then 0
    else ((feeders.map (fun (f : Int × Int) => f.1 * f.2)).sum).tdiv (100 * feeders.length)
  let band : Nat := target10 * 100 / 1000
  (max 5 (clampInt ((target10 : Int) - band) ((target10 : Int) + band) ((target10 : Int) - shift))).toNat

/-- The own offer of a LAYING station (R40). -/
def offerOf (ownLimit smax eff10 : Nat) (trim : Int) : Nat :=
  min ownLimit (smax * 100000 / (eff10 * (1000 + trim).toNat))

/-- S_base in RUN and EASING (R38): run pace x eff10 / 100, rounded half up. -/
def baseRate (run eff10 : Nat) : Nat := (2 * (run * eff10) + 100) / 200

/-- S_cmd from S_base (R38): rounded half up, then clamped to 0..Smax. -/
def commandRate (smax base : Nat) (trim : Int) : Nat :=
  min smax ((2 * (base * (1000 + trim).toNat) + 1000) / 2000)

/-! ## Target and offer -/

/-- A balancing feeder's last D10 and weight (R35). -/
def ListenEntry.balancing (e : ListenEntry) : Option (Int × Int) :=
  match e.lastReport with
  | some r =>
    if e.status == .peer && e.role == .feed && e.weight != 0 && !e.stale && decide (1 ≤ r.windowCount)
    then some (r.lastD10, e.weight) else none
  | none => none

/-- The balancing feeders in listen table order. -/
def balancingFeeders (s : State) : List (Int × Int) :=
  s.pace.listen.toList.filterMap ListenEntry.balancing

/-- The own offer at the present eff10 and trim; the own pace limit on another kind and while eff10 is
absent (R21, R40). -/
def ownOfferNow (s : State) (t : Twist) : Nat :=
  if s.isLaying then
    match t.eff10 with
    | some e => offerOf s.cfg.ownLimit s.cfg.smax e t.trim
    | none => s.cfg.ownLimit
  else s.cfg.ownLimit

/-- eff10 and the own offer computed again from the ACTIVE bank's target10 (R36, R40). -/
def retarget (s : State) : State :=
  let t := { s.twist with eff10 := some (balance s.twistPage.target10 (balancingFeeders s)) }
  s.setTwist { t with ownOffer := ownOfferNow s t }

/-! ## Windows -/

/-- A window opens at the run position (R22). -/
def Twist.openWindow (pos : Nat) (t : Twist) : Twist :=
  { t with windowOpen := true, pulses := 0, width := 0, windowStart := pos }

/-- The open window is discarded without evaluation (R41, R42). -/
def Twist.discardWindow (t : Twist) : Twist :=
  { t with windowOpen := false, pulses := 0, width := 0, windowStart := 0 }

/-- The non-IN run ends (R31). -/
def Twist.endRun (t : Twist) : Twist := { t with offRun := 0, offMajor := false, majorRun := 0 }

/-- Window count and last results start again (R28). -/
def Twist.clearResults (t : Twist) : Twist :=
  { t with lastT10 := none, lastD10 := 0, lastE := none, lastClass := none, windowCount := 0 }

/-- Entry to RUN from READY opens a window on a LAYING station (R22). -/
def openWindow (s : State) : State :=
  if s.isLaying then s.setTwist (s.twist.openWindow s.pos) else s

/-- The non-IN run ends and the open TWIST entry closes (R31); the second part is the entry as closed. -/
def endTwistRun (s : State) : State × Option MapEntry :=
  closeEntry .twist (s.setTwist s.twist.endRun)

/-- A bank switch at twist regulation (R42), once the new bank is ACTIVE; `oldTarget` is the old bank's
target10. -/
def switchTwist (oldTarget : Nat) (s : State) : State × Option MapEntry :=
  if s.isLaying then
    let discarded := s.setTwist s.twist.discardWindow
    let ended := endTwistRun discarded
    let t := ended.1.twist.clearResults
    let t := { t with trim := if s.twistPage.target10 = oldTarget then t.trim else 0 }
    let aimed := retarget (ended.1.setTwist t)
    (if s.station.state.driven then openWindow aimed else aimed, ended.2)
  else (s, none)

end Sys2Proof.Machine
end

