-- ==== Sys2Proof/Machine/Knot.lean ====
section
/-!
DEFINITION. Knot and mesh inspection's evaluation of a row and the parts other blocks use (chapter 3), and
the bank switch that twist regulation, inspection and the marks take together (R124).
-/

namespace Sys2Proof.Machine

/-! ## Row evaluation -/

/-- A section's missing count (R51). -/
def missingOf (expected counted : Nat) : Nat := expected - counted

/-- The enabled sections' counters (R49). -/
def enabledCounters (n : Nat) (counters : Vector Nat 8) : List Nat := counters.toList.take n

/-- Over-counts of the enabled sections added to `overcount` (R51). -/
def addOvercounts (n expected : Nat) (counters overcount : Vector Nat 8) : Vector Nat 8 :=
  Vector.ofFn (fun i : Fin 8 =>
    if i.val < n then satAdd Config.count16 (overcount.get i) (counters.get i - expected)
    else overcount.get i)

/-- The row's knot flag (R52). -/
def knotFlagged (mode : KnotMode) (threshold : Nat) (missing : List Nat) : Bool :=
  match mode with
  | .any => missing.any (fun m => decide (threshold ≤ m))
  | .all => missing.all (fun m => decide (threshold ≤ m))

/-- The deviation of an advance from a reference above 0: permille, truncated (R56). -/
def meshDeviation (advance reference : Nat) : Nat :=
  (max advance reference - min advance reference) * 1000 / reference

/-- The deviation as it is kept: clamped to 65,535, and 65,535 against a reference of 0 (R56). -/
def keptDeviation (advance reference : Nat) : Nat :=
  if reference = 0 then 65535 else min 65535 (meshDeviation advance reference)

/-- The mesh check of a row (R53 to R56): its deviation, absent when the row is not checked or has no
reference, and its mesh flag. -/
def meshCheck (page : KnotPage) (k : Knot) (advance : Option Nat) : Option Nat × Bool :=
  match advance with
  | none => (none, false)
  | some a =>
    match page.meshRef, k.firstRef, k.prevAdvance with
    | .first, none, _ => (some 0, false)
    | .first, some r, _ | .prev, _, some r =>
      (some (keptDeviation a r), decide (r = 0) || decide (page.meshTol < meshDeviation a r))
    | .prev, _, none => (none, false)

/-- The results of the row closing at `pos` (R51 to R56). -/
def rowResult (page : KnotPage) (k : Knot) (pos : Nat) : RowResult :=
  let missing := (enabledCounters page.sections k.counters).map (missingOf page.expected)
  let flagged := knotFlagged page.mode page.threshold missing
  let advance := k.prevClose.map (fun c => pos - c)
  let mesh := meshCheck page k advance
  { missing := missing.sum, knotFlag := flagged,
    major := flagged && decide (page.majorRow ≤ missing.sum),
    advance, deviation := mesh.1, meshFlag := mesh.2 }

/-- Steps 1 to 4 of R50: over-counts, references, statistics and last row results. -/
def Knot.record (page : KnotPage) (pos : Nat) (k : Knot) : Knot :=
  let r := rowResult page k pos
  { k with
    overcount := addOvercounts page.sections page.expected k.counters k.overcount
    firstRef := match k.firstRef with
      | some f => some f
      | none => r.advance
    prevAdvance := r.advance
    last := r
    rowsClosed := sat Config.count16 k.rowsClosed
    knotRows := if r.knotFlag then sat Config.count16 k.knotRows else k.knotRows
    meshRows := if r.meshFlag then sat Config.count16 k.meshRows else k.meshRows }

/-- The next row opens at a row close (R48). -/
def Knot.nextRow (pos : Nat) (k : Knot) : Knot :=
  { k with rowOpen := true, counters := Vector.replicate 8 0, rowStart := pos, prevClose := some pos }

/-- The first row of a running spell opens at entry to RUN from READY (R48). -/
def Knot.firstRow (pos : Nat) (k : Knot) : Knot :=
  { k with rowOpen := true, counters := Vector.replicate 8 0, rowStart := pos, prevClose := none }

/-- Entry to STOPPED discards the open row and ends both runs (R62). -/
def Knot.discardRow (k : Knot) : Knot :=
  { k with rowOpen := false, counters := Vector.replicate 8 0, prevClose := none, prevAdvance := none,
           knotRun := 0, knotMajor := false, meshRun := 0 }

/-- Entry to RUN from READY opens a row on a NETTING station. -/
def openRow (s : State) : State :=
  if s.isNetting then s.setKnot (s.knot.firstRow s.pos) else s

/-- An event's closed entries, in the order in which they close. -/
def closedList (a b : Option MapEntry) : List MapEntry := a.toList ++ b.toList

/-- An open KNOT entry and an open MESH entry close, in that order (R59). -/
def closeKnotEntries (s : State) : State × List MapEntry :=
  let knots := closeEntry .knot s
  let meshes := closeEntry .mesh knots.1
  (meshes.1, closedList knots.2 meshes.2)

/-- A bank switch at knot and mesh inspection (R64), once the new bank is ACTIVE. -/
def switchKnot (s : State) : State × List MapEntry :=
  if s.isNetting then
    closeKnotEntries (s.setKnot { s.knot with
      knotRun := 0, knotMajor := false, meshRun := 0, firstRef := none, prevAdvance := none
      counters := Vector.ofFn (fun i : Fin 8 =>
        if i.val < s.knotPage.sections then s.knot.counters.get i else 0) })
  else (s, [])

/-! ## The bank switch (R124) -/

/-- Step 1: the ACTIVE bank becomes LOADED and bank `k` ACTIVE. -/
def switchStates (k : Nat) (s : State) : State :=
  let freed := match s.activeBank with
    | some a => s.setBank a { s.bank a with state := .loaded }
    | none => s
  freed.setBank k { freed.bank k with state := .active }

/-- The switch to bank `k` with its CHANGE entry at `position`; the second part lists the entries it
closed. A CHANGE entry of this station places no cut (R105), so nothing else is told to the former. A MAP_FULL
that the CHANGE raises in step 2 changes the station state there, and its PACE report carries the D10, window
count and own_offer of before step 3 (log entry 49). -/
def switchBank (k position : Nat) (s : State) : State × List MapEntry :=
  let oldTarget := s.twistPage.target10
  let offered := (offerRaw (.offerOf .change position) (switchStates k s)).1
  let twisted := switchTwist oldTarget offered
  let knotted := switchKnot twisted.1
  let s4 := knotted.1
  let marked :=
    if s4.forming then s4
    else s4.setMarks (s4.marks.switch s4.activePackagePage.markInterval s4.pos)
  (marked, twisted.2.toList ++ knotted.2)

/-- A STAGED bank takes effect at a boundary; without one nothing happens. -/
def switchStaged (position : Nat) (s : State) : State × List MapEntry :=
  match s.stagedBank with
  | some k => switchBank k position s
  | none => (s, [])

end Sys2Proof.Machine
end

