-- ==== Sys2Proof/Machine/Former.lean ====
section
/-!
DEFINITION. The package former (chapter 5): the cut list, the close of a package, opening, the normal plan
and its resolution, cut-outs, the join limit, change cuts, and the answers to the three events the run map
hands over (R84).

A placement may fire a cut, a fire opens a package, and an opening may place cuts again. `fireCut` takes a
depth that bounds this: at one run position only one close can be made by a cut that fires at its
placement (it moves the open package's start to the product at the cutter, and every later cut behind the
cutter is then removed without a close, R94, R96), so `fireDepth` is never used up (log entry 5).
-/

namespace Sys2Proof.Machine

/-! ## Cuts -/

/-- `x` stands before `c`: by position, and among equals by the order of their placement (R94). -/
def Cut.before (c x : Cut) : Bool :=
  decide (x.position < c.position) || (x.position == c.position && decide (x.placed ≤ c.placed))

/-- Insertion in the order of R94. -/
def insertCut (c : Cut) : List Cut → List Cut
  | [] => [c]
  | x :: xs => if c.before x then x :: insertCut c xs else c :: x :: xs

/-- The place in the order of placement of a cut placed now: after every pending cut (R94). -/
def nextPlacement (cuts : List Cut) : Nat := cuts.foldl (fun n c => max n (c.placed + 1)) 0

/-- The run position has reached the cut's fire point, its position plus the cutter offset (R94). -/
def Cut.due (offset pos : Nat) (c : Cut) : Bool := decide (c.position + offset ≤ pos)

/-- A cut placed or moved when its position plus X is reached is firm at once; a waiting one does not
become firm, and a firm one stays so while it is not moved (R95). -/
def Cut.settle (x pos : Nat) (c : Cut) : Cut :=
  { c with firm := c.firm || (!c.waiting && decide (c.position + x ≤ pos)) }

/-- A cut moved up to a position; one that stands there or beyond is not moved. The move takes the firm mark
away, for R95 to test afresh where the cut now stands (R104, R143; log entry 6). -/
def Cut.raise (position : Nat) (c : Cut) : Cut :=
  { c with position := max c.position position, firm := c.firm && decide (position ≤ c.position) }

/-- The entry that a SCRAP_END waits for has closed: the cut moves to at least this position, X past the
final end, and waits no longer (R103). -/
def Cut.release (position : Nat) (c : Cut) : Cut := { c.raise position with waiting := false }

/-- The cut at an index is revised. It was placed when it was, moved or not, so it stands among the cuts at
its position in the order of their placement (R94, R103, R104). -/
def reviseCut (f : Cut → Cut) (i : Nat) (cuts : List Cut) : List Cut :=
  match cuts[i]? with
  | some c => insertCut (f c) (cuts.eraseIdx i)
  | none => cuts

/-- A PACKAGE_END. -/
def Cut.isPackageEnd (c : Cut) : Bool := c.purpose == .packageEnd

/-- The normal plan: a PACKAGE_END of reason LENGTH. -/
def Cut.isPlan (c : Cut) : Bool := c.isPackageEnd && c.plan == some .length

/-- X of the open package's bank, 0 with no open package. -/
def xNow (s : State) : Nat :=
  match s.openPackage with
  | some p => (s.packagePage p.bank).x s.cfg.cutterOffset
  | none => 0

/-- Replace the cut list. -/
def setCuts (cuts : List Cut) (s : State) : State := s.setFormer { s.former with cuts }

/-- The former counts a cut-out or change cut that found no room. -/
def refuseCut (s : State) : State :=
  s.setFormer { s.former with cutsRefused := sat Config.count16 s.former.cutsRefused }

/-- Replace the OPEN record. -/
def mapOpen (f : PackageRecord → PackageRecord) (s : State) : State :=
  s.setFormer { s.former with table := s.former.table.map (fun r => if r.state = .opened then f r else r) }

/-- The type test of R91 on a cut list, with `extra` SCRAP_ENDs counted that are about to be placed. -/
def typeOf (extra : Nat) (cuts : List Cut) : PackageType :=
  if cuts.countP (fun c => c.purpose == .scrapStart) < cuts.countP (fun c => c.purpose == .scrapEnd) + extra
  then .scrap else .normal

/-! ## The close (R106 to R110) -/

/-- What a close has taken so far. `majors` and `minors` remember items whether kept or dropped; CHANGE
items are not counted in `minors` (R107, R109). -/
structure Taking where
  joinCount : Nat
  joins     : List Nat
  defects   : List DefectItem
  dropped   : Nat
  majors    : Nat
  minors    : Nat
  deriving DecidableEq, Repr

/-- Nothing taken. -/
def Taking.nothing : Taking :=
  { joinCount := 0, joins := [], defects := [], dropped := 0, majors := 0, minors := 0 }

/-- A MAJOR item takes the place of the first MINOR or CHANGE item of a full list; none when the list holds
no such item (R107). -/
def replaceMinor (new : DefectItem) : List DefectItem → Option (List DefectItem)
  | [] => none
  | d :: ds =>
    if d.severity == .minor || d.kind == .change then some (new :: ds)
    else (replaceMinor new ds).map (d :: ·)

/-- A defect item is offered to the defects list (R107). A CHANGE is never a MAJOR item here, whatever
severity it arrived with (log entry 50). -/
def Taking.item (d : DefectItem) (t : Taking) : Taking :=
  let isMajor := d.severity == .major && d.kind != .change
  let counted := { t with
    majors := if isMajor then t.majors + 1 else t.majors
    minors := if !isMajor && d.kind != EntryKind.change then t.minors + 1 else t.minors }
  if t.defects.length < Config.defectCapacity then { counted with defects := t.defects ++ [d] }
  else
    let lost := { counted with dropped := sat Config.count8 t.dropped }
    if isMajor then
      match replaceMinor d t.defects with
      | some ds => { lost with defects := ds }
      | none => lost
    else lost

/-- A JOIN is taken (R106). -/
def Taking.join (offset : Nat) (t : Taking) : Taking :=
  { t with joinCount := sat Config.count8 t.joinCount
           joins := if t.joins.length < Config.joinCapacity then t.joins ++ [offset] else t.joins }

/-- An entry below the close position `k` is taken: whole when it ends at or below `k`, otherwise its head
up to `k`. A part before the package start is not counted (R106, R107). A JOIN that arrived with an extent and
ends above `k` is split like any other entry (log entry 51). -/
def Taking.entry (start k : Nat) (t : Taking) (e : MapEntry) : Taking :=
  let first := max e.position start
  if e.kind = .join ∧ e.endPos ≤ k then t.join (e.position - start)
  else t.item { offset := first - start, kind := e.kind, extent := min e.endPos k - first,
                severity := e.severity, origin := e.origin }

/-- The tail that a straddling entry leaves in the map at `k` (R107). -/
def MapEntry.tail (k : Nat) (e : MapEntry) : MapEntry :=
  { e with position := k, extent := e.endPos - k }

/-- The map after a close at `k`: the tails first, then every entry at or above `k` (R106, R107). An open
entry of any kind that the close takes whole leaves without a hand-off, and its owner then has none open; a
SCRAP_END that waited for it goes on waiting, for R108 keeps the waiting flags (log entry 7). -/
def entriesAfter (k : Nat) (entries : List MapEntry) : List MapEntry :=
  (entries.filter (fun e => decide (e.position < k) && decide (k < e.endPos))).map (MapEntry.tail k)
    ++ entries.filter (fun e => decide (k ≤ e.position))

/-- The grade of a closing record (R109). -/
def gradeOf (page : PackagePage) (type : PackageType) (t : Taking) (length : Nat) : Grade :=
  match type with
  | .scrap => .scrap
  | .normal =>
    if 0 < t.majors ∨ page.minorAllowance < t.minors ∨ page.maxJoins < t.joinCount ∨ length < page.minLength
    then .second else .first

/-- The record closed at `k` (R106 to R109). -/
def PackageRecord.close (page : PackagePage) (k : Nat) (reason : CloseReason) (entries : List MapEntry)
    (r : PackageRecord) : PackageRecord :=
  let t := (entries.filter (fun e => decide (e.position < k))).foldl (Taking.entry r.startPos k) Taking.nothing
  { r with endPos := some k, joinCount := t.joinCount, joins := t.joins, defects := t.defects,
           defectsDropped := t.dropped, grade := some (gradeOf page r.type t (k - r.startPos)),
           reason := some reason, state := .closed, report := some .queued }

/-- The summary a PKG frame carries (R110). -/
def PackageRecord.summary (r : PackageRecord) : PkgSummary :=
  { number := r.number, type := r.type, bank := r.bank, productCode := r.productCode,
    startPos := r.startPos, length := r.endPos.getD r.startPos - r.startPos, joinCount := r.joinCount,
    defectCount := r.defects.length + r.defectsDropped, grade := r.grade, reason := r.reason }

/-- Queues the PKG frame of a record; a refusal at queuing turns its report to UNSENT (R93). -/
def queueReport (s : State) (r : PackageRecord) : State :=
  enqueue (.pkg r.summary) (s.setFormer (s.former.markReport r.number .queued))

/-- Every UNSENT record is queued again, in order of opening (R93). -/
def requeueUnsent (s : State) : State :=
  (s.former.table.filter (fun r => r.state == .closed && r.report == some .unsent)).foldl queueReport s

/-- The close of the OPEN record at `k`, up to its PKG frame (R106 to R110). The pending cuts but the
PACKAGE_ENDs are carried over as they stand (R108). -/
def closeRecord (k : Nat) (reason : CloseReason) (p : PackageRecord) (s : State) : State :=
  let page := s.packagePage p.bank
  let closing := p.close page k reason s.map.entries
  let taken := s.setMap { s.map with entries := entriesAfter k s.map.entries }
  let settled := setCuts (s.former.cuts.filter (fun c => !c.isPackageEnd)) taken
  let requeued := requeueUnsent settled
  queueReport (mapOpen (fun _ => closing) requeued) closing

/-! ## Opening (R91, R92) -/

/-- Makes room in a full table: the oldest REPORTED record goes, or else the oldest CLOSED one, which is
counted (R92). -/
def Former.makeRoom (f : Former) : Former :=
  if f.table.length < Config.tableCapacity then f
  else match takeFirst (fun r => r.state == .reported) f.table with
    | some (_, rest) => { f with table := rest }
    | none =>
      match takeFirst (fun r => r.state == .closed) f.table with
      | some (_, rest) => { f with table := rest, reportsLost := sat Config.count16 f.reportsLost }
      | none => f

/-- The next package opens at `k` (R91) and the marks restart (R15). `extra` counts SCRAP_ENDs about to be
placed (R102). -/
def openRecord (k extra : Nat) (s : State) : State :=
  let bank := s.activeBank.getD 0
  let page := s.packagePage bank
  let f := s.former.makeRoom
  let record : PackageRecord :=
    { number := f.nextNumber, type := typeOf extra f.cuts, bank, productCode := page.productCode,
      startPos := k, endPos := none, joinCount := 0, joins := [], defects := [], defectsDropped := 0,
      grade := none, reason := none, state := .opened, report := none }
  (s.setFormer { f with
      table := f.table ++ [record]
      nextNumber := if f.nextNumber < 65535 then f.nextNumber + 1 else 1 }).setMarks
    (s.marks.restart page.markInterval)

/-! ## Placing and firing -/

/-- What fires a cut at a position: the cut, the position, and the SCRAP_ENDs of the same cut-out that
R91's type test counts. -/
abbrev Fire := Cut → Nat → Nat → State → State

/-- Places a cut (R94, R95): it fires at once, at the product now at the cutter, when its fire point is
reached; otherwise it enters the list, the latest placed of the pending cuts. -/
def placeCut (fire : Fire) (c : Cut) (extra : Nat) (s : State) : State :=
  if !c.waiting && c.due s.cfg.cutterOffset s.pos then fire c (s.pos - s.cfg.cutterOffset) extra s
  else if s.former.cuts.length < Config.cutCapacity then
    setCuts (insertCut { c.settle (xNow s) s.pos with placed := nextPlacement s.former.cuts } s.former.cuts) s
  else refuseCut s

/-- A pending cut, taken out of the list and moved, fires at once when its fire point is reached and else
stands at its new position in the order of R94 (R99, R103). -/
def moveCut (fire : Fire) (c : Cut) (rest : List Cut) (s : State) : State :=
  if !c.waiting && c.due s.cfg.cutterOffset s.pos then
    fire c (s.pos - s.cfg.cutterOffset) 0 (setCuts rest s)
  else setCuts (insertCut (c.settle (xNow s) s.pos) rest) s

/-- A cut-out's three outcomes (R104). -/
inductive CutOutCase where
  | merge (index : Nat)
  | extend (index : Nat)
  | place
  | refuse
  deriving DecidableEq, Repr

/-- Index of the last element satisfying `p`. -/
def lastIdx (p : α → Bool) (l : List α) : Option Nat :=
  (l.reverse.findIdx? p).map (fun i => l.length - 1 - i)

/-- Which case of R104 a cut-out with C1 and C2 falls under. `start` is the open package's start. Among
SCRAP_ENDs that fit a merge the first in the list is taken, and among those of highest position the last (log
entry 25). -/
def cutOutCase (c1 : Int) (start x : Nat) (cuts : List Cut) : CutOutCase :=
  match cuts.findIdx? (fun c => c.purpose == .scrapEnd && decide (((c.pairStart.getD 0 : Nat) : Int) ≤ c1)
      && decide (c1 ≤ (c.position : Int) + 2 * x)) with
  | some i => .merge i
  | none =>
    let beyond := decide (c1 > start)
    let discarded := cuts.countP (fun c => c.isPackageEnd && (!beyond || decide ((c.position : Int) > c1)))
    let needed := if beyond then 2 else 1
    if needed ≤ Config.cutCapacity - cuts.length + discarded then .place
    else match lastIdx (fun c => c.purpose == .scrapEnd) cuts with
      | some i => .extend i
      | none => .refuse

/-- Moves the SCRAP_END at an index to at least `c2`; it waits if the new C2 belongs to an open entry, and a
move tests firm afresh (R95, R104). -/
def extendCut (index c2 : Nat) (wait : Bool) (s : State) : State :=
  setCuts (reviseCut (fun c => { c.raise c2 with waiting := c.waiting || wait }.settle (xNow s) s.pos)
    index s.former.cuts) s

/-- A cut other than a PACKAGE_END, not placed yet: its place in the order comes with its placement. -/
def newCut (position : Nat) (purpose : CutPurpose) (waiting : Bool) (pairStart : Option Nat) : Cut :=
  { position, purpose, firm := false, plan := none, waiting, pairStart, placed := 0 }

/-- An entry handed over open is still open: a bank switch or a close made since may have closed it. -/
def stillOpen (e : MapEntry) (s : State) : Bool := e.isOpen && (s.openEntry e.kind).isSome

/-- A cut-out of a map entry (R101 to R104). The SCRAP_END waits for an entry that is open when it is
placed, after the fire of a SCRAP_START that fires at its placement (R94, R103; log entry 48). `dropPlan`
discards the normal plan when the cut-out is placed (R99). The second part says whether it was placed. -/
def cutOut (fire : Fire) (e : MapEntry) (dropPlan : Bool) (s : State) : State × Bool :=
  match s.openPackage with
  | none => (s, false)
  | some p =>
    let x := xNow s
    let c1 : Int := (e.position : Int) - x
    let c2 := e.endPos + x
    match cutOutCase c1 p.startPos x s.former.cuts with
    | .merge i => (extendCut i c2 (stillOpen e s) s, false)
    | .extend i => (extendCut i c2 (stillOpen e s) s, false)
    | .refuse => (refuseCut s, false)
    | .place =>
      if c1 > p.startPos then
        let kept := s.former.cuts.filter (fun c =>
          !(c.isPackageEnd && decide ((c.position : Int) > c1)) && !(dropPlan && c.isPlan))
        let started := placeCut fire (newCut c1.toNat .scrapStart false none) 1 (setCuts kept s)
        (placeCut fire (newCut c2 .scrapEnd (stillOpen e started) (some c1.toNat)) 0 started, true)
      else
        let kept := s.former.cuts.filter (fun c => !c.isPackageEnd)
        let typed := mapOpen (fun r => { r with type := typeOf 1 kept }) (setCuts kept s)
        (placeCut fire (newCut c2 .scrapEnd (stillOpen e s) (some p.startPos)) 0 typed, true)

/-! ## The normal plan (R97 to R99) -/

/-- The blockers of the map that meet the window of a cut position. -/
def blockersAt (c x : Int) (entries : List MapEntry) : List MapEntry :=
  entries.filter (fun e => e.blocker && e.meets c x)

/-- The early candidate of R99, from a candidate and the blockers of the map: while its window meets a
blocker, it moves to the least position met minus X. -/
def earlyFrom (x : Int) (entries : List MapEntry) : Nat → Int → Int
  | 0, c => c
  | n + 1, c =>
    earlyFrom x entries n ((blockersAt c x entries).foldl (fun acc e => min acc ((e.position : Int) - x)) c)

/-- The late candidate of R99, likewise from the greatest end met plus X. -/
def lateFrom (x : Int) (entries : List MapEntry) : Nat → Int → Int
  | 0, c => c
  | n + 1, c =>
    lateFrom x entries n ((blockersAt c x entries).foldl (fun acc e => max acc ((e.endPos : Int) + x)) c)

/-- What R99 makes of a plan. -/
inductive PlanChoice where
  | at_ (position : Nat)
  | cutOut (blocker : MapEntry)
  deriving DecidableEq, Repr

/-- R99: the plan resolved afresh from C = start + target. Among blockers of the first group that share the
lowest position the first in map order is cut out (log entry 57). -/
def resolvePlan (page : PackagePage) (start offset pos : Nat) (entries : List MapEntry) : PlanChoice :=
  let x : Int := page.x offset
  let c : Int := (start : Int) + page.target
  match blockersAt c x entries with
  | [] => .at_ (start + page.target)
  | b :: group =>
    let early := earlyFrom x entries entries.length
      (group.foldl (fun acc e => min acc ((e.position : Int) - x)) ((b.position : Int) - x))
    let late := lateFrom x entries entries.length
      (group.foldl (fun acc e => max acc ((e.endPos : Int) + x)) ((b.endPos : Int) + x))
    if (start : Int) + page.minLength ≤ early ∧ (pos : Int) < early + offset then .at_ early.toNat
    else if late ≤ (start : Int) + page.maxLength then .at_ late.toNat
    else .cutOut (group.foldl (fun acc e => if e.position < acc.position then e else acc) b)

/-- A PACKAGE_END of the normal plan at a position, not placed yet. -/
def planCut (position : Nat) : Cut :=
  { position, purpose := .packageEnd, firm := false, plan := some .length, waiting := false,
    pairStart := none, placed := 0 }

/-- The plan of a NORMAL open package is made when its plan point is reached and nothing bars it (R97),
checked against blockers before it is entered (R98). -/
def planIfDue (fire : Fire) (s : State) : State :=
  match s.openPackage with
  | none => s
  | some p =>
    let page := s.packagePage p.bank
    let offset := s.cfg.cutterOffset
    if p.type = .normal ∧ p.startPos + page.target ≤ s.pos + page.planAhead offset
        ∧ s.former.cuts.all (fun c => c.purpose == .scrapEnd) ∧ s.former.cuts.length < Config.cutCapacity then
      match resolvePlan page p.startPos offset s.pos s.map.entries with
      | .at_ c => placeCut fire (planCut c) 0 s
      | .cutOut b =>
        let out := cutOut fire b false s
        if out.2 then out.1 else placeCut fire (planCut (p.startPos + page.target)) 0 out.1
    else s

/-- The plan in the list is checked against the map until it is firm, and resolved afresh when a blocker
meets its window (R98, R99). A plan that moves keeps its place in the order of placement (log entry 59). -/
def checkPlan (fire : Fire) (s : State) : State :=
  match s.openPackage, takeFirst (fun c => c.isPlan && !c.firm) s.former.cuts with
  | some p, some (plan, rest) =>
    let page := s.packagePage p.bank
    let offset := s.cfg.cutterOffset
    if (blockersAt plan.position (page.x offset) s.map.entries).isEmpty then s
    else match resolvePlan page p.startPos offset s.pos s.map.entries with
      | .at_ c => moveCut fire { planCut c with placed := plan.placed } rest s
      | .cutOut b => (cutOut fire b true s).1
  | _, _ => s

/-- The open package's type is set again by R91's test; a package that becomes SCRAP loses its pending
PACKAGE_END, one that becomes NORMAL is planned if its plan point is reached (R96). -/
def retype (fire : Fire) (s : State) : State :=
  match s.openPackage with
  | none => s
  | some p =>
    let type := typeOf 0 s.former.cuts
    if type = p.type then s
    else
      let typed := mapOpen (fun r => { r with type }) s
      match type with
      | .scrap => setCuts (s.former.cuts.filter (fun c => !c.isPackageEnd)) typed
      | .normal => planIfDue fire typed

/-! ## Events handed over by the run map (R84) -/

/-- The join limit (R100). The second part says whether the JOIN reached it. -/
def joinLimit (fire : Fire) (e : MapEntry) (s : State) : State × Bool :=
  match s.openPackage with
  | none => (s, false)
  | some p =>
    let page := s.packagePage p.bank
    let others := s.map.entries.countP (fun m => m.kind == .join) - 1
    if p.type = .normal ∧ s.former.cuts.all (fun c => decide (e.position < c.position))
        ∧ page.maxJoins ≤ others then
      let cj : Int := (e.position : Int) - page.x s.cfg.cutterOffset
      if (p.startPos : Int) + page.minLength ≤ cj then
        let kept := setCuts (s.former.cuts.filter (fun c => !c.isPackageEnd)) s
        (placeCut fire { planCut cj.toNat with plan := some .joinLimit } 0 kept, true)
      else ((cutOut fire e false s).1, true)
    else (s, false)

/-- The CHANGE cut of an arrived CHANGE entry (R105). -/
def changeCut (fire : Fire) (e : MapEntry) (s : State) : State :=
  let cut := newCut e.position .change false none
  if cut.due s.cfg.cutterOffset s.pos ∨ s.former.cuts.length < Config.cutCapacity then placeCut fire cut 0 s
  else match takeFirst Cut.isPackageEnd s.former.cuts with
    | some (_, rest) => placeCut fire cut 0 (setCuts rest s)
    | none => refuseCut s

/-- Whether the open package's bank cuts MAJOR entries out. -/
def cutsOutMajor (s : State) : Bool :=
  match s.openPackage with
  | some p => (s.packagePage p.bank).cutOutMajor
  | none => false

/-- An entry was inserted (R98, R100, R101, R105). A JOIN or CHANGE that arrived as MAJOR counts as MAJOR here
(log entry 50). -/
def entryInserted (fire : Fire) (e : MapEntry) (s : State) : State :=
  if s.forming && s.openPackage.isSome then
    let cut := if e.severity == .major && cutsOutMajor s then (cutOut fire e false s).1 else s
    let limited := if e.kind == .join then joinLimit fire e cut else (cut, false)
    let checked := if e.blocker && !limited.2 then checkPlan fire limited.1 else limited.1
    if e.kind == .change && e.origin != 0 then changeCut fire e checked else checked
  else s

/-- An open entry was upgraded to MAJOR (R98, R101). -/
def entryUpgraded (fire : Fire) (e : MapEntry) (s : State) : State :=
  if s.forming && s.openPackage.isSome then
    checkPlan fire (if cutsOutMajor s then (cutOut fire e false s).1 else s)
  else s

/-- Index of the SCRAP_END that waits for the open entry. At most one does (R103); where one still waits for
an entry that a close took whole, the last in list order is the open entry's (log entry 7). -/
def waitingCut (cuts : List Cut) : Option Nat := lastIdx (fun c => c.waiting) cuts

/-- The SCRAP_END that waits is released at the close of its entry, with final end `final`: it moves in the
list, or fires at that close, at the product now at the cutter, when its fire point is reached (R94, R103). -/
def releaseCut (fire : Fire) (final : Nat) (s : State) : State :=
  match waitingCut s.former.cuts with
  | none => s
  | some i =>
    match s.former.cuts[i]? with
    | none => s
    | some c => moveCut fire (c.release (final + xNow s)) (s.former.cuts.eraseIdx i) s

/-- An open entry was closed (R98, R103). -/
def entryClosed (fire : Fire) (s : State) (e : MapEntry) : State :=
  if s.forming && s.openPackage.isSome && e.severity == .major then checkPlan fire (releaseCut fire e.endPos s)
  else s

/-! ## Fires (R96) -/

/-- The close reason of a cut that fired (R108). -/
def Cut.closeReason (c : Cut) : CloseReason :=
  match c.purpose with
  | .packageEnd => match c.plan with
    | some .joinLimit => .joinLimit
    | _ => .length
  | .scrapStart | .scrapEnd => .cutOut
  | .change => .change

/-- A cut already out of the list fires at position `k`, at most `depth` fires within one another. A mark
point of the closing package that its length at the close reaches falls due first (R15). -/
def fireCut : Nat → Fire
  | 0, _, _, _, s => s
  | depth + 1, c, k, extra, s =>
    match s.openPackage with
    | none => s
    | some p =>
      if k ≤ p.startPos then retype (fireCut depth) s
      else
        let pulsed := s.setFormer { s.former with cutHigh := true }
        let closed := closeRecord k c.closeReason p (testMarkAt (k - p.startPos) pulsed)
        let switched := switchStaged k closed
        let opened := planIfDue (fireCut depth) (openRecord k extra switched.1)
        let doffed := if (s.packagePage p.bank).haltAtClose then raiseSoft .packageDoff opened else opened
        switched.2.foldl (entryClosed (fireCut depth)) doffed

/-- Fires within one another at one run position. -/
def fireDepth : Nat := 6

/-- `fireCut` at full depth. -/
def fire : Fire := fireCut fireDepth

/-- Every cut that one pulse brings to its fire point fires, in list order (R96); each fire takes a cut out
of the list, so `n` is the list's length. -/
def fireDue : Nat → State → State
  | 0, s => s
  | n + 1, s =>
    match takeFirst (fun c => !c.waiting && c.due s.cfg.cutterOffset s.pos) s.former.cuts with
    | none => s
    | some (c, rest) => fireDue n (fire c c.position 0 (setCuts rest s))

/-- Pending cuts become firm at a pulse (R95). -/
def firmCuts (s : State) : State :=
  setCuts (s.former.cuts.map (Cut.settle (xNow s) s.pos)) s

/-- The former's part of an active-source pulse: firm points, fire points, the plan point. -/
def formerPulse (s : State) : State :=
  if s.forming then planIfDue fire (fireDue s.former.cuts.length (firmCuts s)) else s

/-! ## Offers with the former told -/

/-- Offers an entry to the map and hands an insertion to the former (R84). -/
def offerEntry (e : MapEntry) (s : State) : State × Bool :=
  let r := offerRaw e s
  match r.2 with
  | some entry => (entryInserted fire entry r.1, true)
  | none => (r.1, false)

/-- Offers a local JOIN, DWELL or STOP and hands an insertion to the former. -/
def offerPoint (k : EntryKind) (s : State) : State :=
  let r := offerLocal k s
  match r.2 with
  | some entry => entryInserted fire entry r.1
  | none => r.1

/-- The three events the run map hands to the former (R84). A window or row close makes them while it is
evaluated and they are taken once it has been evaluated in full (log entry 8). -/
inductive Handover where
  | inserted (e : MapEntry)
  | upgraded (e : MapEntry)
  | closed (e : MapEntry)
  deriving DecidableEq, Repr

/-- One event handed over. -/
def tell (s : State) : Handover → State
  | .inserted e => entryInserted fire e s
  | .upgraded e => entryUpgraded fire e s
  | .closed e => entryClosed fire s e

/-- Events handed over in order. -/
def tellAll (hs : List Handover) (s : State) : State := hs.foldl tell s

/-- Hands closed entries to the former, in order. -/
def tellClosed (r : State × List MapEntry) : State := tellAll (r.2.map .closed) r.1

/-- END's close of the open package (R111): at the run position, or at the first pending cut below it, and
not below the start; the cut list is emptied and nothing opens. -/
def closeAtEnd (s : State) : State :=
  match s.openPackage with
  | none => s
  | some p =>
    let reached := match s.former.cuts with
      | c :: _ => min s.pos c.position
      | [] => s.pos
    setCuts [] (closeRecord (max reached p.startPos) .endRun p s)

/-- Run start on a forming station (R113): the cut list is emptied, `cuts_refused` is 0, and the first
package opens at position 0. -/
def startPackages (s : State) : State :=
  if s.forming then
    planIfDue fire (openRecord 0 0
      (s.setFormer { s.former with cuts := [], cutsRefused := 0 }))
  else s

end Sys2Proof.Machine
end

