-- ==== Sys2Proof/Machine/Station.lean ====
section
/-!
DEFINITION. Station control (chapter 8): entry to STOPPED, HARD causes, GO, run start, clearing, halts and
resumptions of peers, and END.
-/

namespace Sys2Proof.Machine

/-! ## Entry to STOPPED and HARD causes -/

/-- Step 2 of R155: the window is discarded, the non-IN run ends and an open TWIST entry closes (R41). -/
def stopTwist (s : State) : State :=
  if s.isLaying then
    let ended := endTwistRun (s.setTwist s.twist.discardWindow)
    tellClosed (ended.1, ended.2.toList)
  else s

/-- Step 3 of R155: the row is discarded, both runs end and open KNOT and MESH entries close (R62). -/
def stopKnot (s : State) : State :=
  if s.isNetting then tellClosed (closeKnotEntries (s.setKnot s.knot.discardRow)) else s

/-- Entry to STOPPED from RUN or EASING, in the order of R155. -/
def enterStopped (s : State) : State :=
  let off := clearDwell (s.setStation (s.station.enter .stopped))
  let stilled := off.setPace { off.pace with run := 0 }
  let discarded := stopKnot (stopTwist stilled)
  let logged :=
    match lastLocal .stop discarded with
    | some e => if e.position = discarded.pos then mergeLocal .stop discarded else offerPoint .stop discarded
    | none => offerPoint .stop discarded
  refreshPace logged

/-- What taking a cause of a level does to the station state (R153). -/
def actLevel (l : Level) (s : State) : State :=
  match l with
  | .soft => actSoft s
  | .hard =>
    match s.station.state with
    | .ready => stopFromReady s
    | .run | .easing => enterStopped s
    | _ => s

/-- Raise a local cause of either level: taken if a run exists and it is not held, announced by HALT, and
acting on the station state at the same event (R153, R161, R169). -/
def raiseLocal (c : LocalCause) (s : State) : State :=
  if s.inRun && !s.station.locals.contains c then
    actLevel c.level (announce c (s.setStation (s.station.takeLocal s.own c)))
  else s

/-! ## GO and run start -/

/-- READY passes to RUN at a GO of the given origin (R152). -/
def takeGo (origin : Nat) (s : State) : State :=
  let entered := enqueue (.go origin) (s.setStation (s.station.enter .run))
  loadDwell (openRow (openWindow (refreshPace entered)))

/-- Length metering at run start (R18). -/
def Length.atRunStart (l : Length) : Length :=
  { l with acc := 0, source := .a, switched := false, degraded := false, la := 0, lb := 0, badSpans := 0,
           lastSlip := 0, dwellCount := 0, dwelling := false }

/-- Twist regulation at run start, before eff10 and own_offer (R45). -/
def Twist.atRunStart (t : Twist) : Twist :=
  { t.discardWindow.endRun.clearResults with trim := 0, sBase := 0, sCmd := 0 }

/-- Pace and hand-off at run start (R149). -/
def Pace.atRunStart (p : Pace) : Pace :=
  { p with target := 0, run := 0, arrivals := [], arrivalsDropped := 0 }

/-- Every block takes run start with bank `k` (R151), up to the transition itself. -/
def startBlocks (k : Nat) (s : State) : State :=
  let banked := s.setBank k { s.bank k with state := .active }
  let metered := banked.setLength banked.length.atRunStart
  let mapped := metered.setMap .reset
  let twisted := mapped.setTwist mapped.twist.atRunStart
  let aimed := if twisted.isLaying then retarget twisted else twisted
  let knotted := aimed.setKnot .reset
  let paced := knotted.setPace knotted.pace.atRunStart
  let marked := paced.setMarks { paced.marks with skipped := 0 }
  if marked.forming then startPackages marked
  else marked.setMarks (marked.marks.restart marked.activePackagePage.markInterval)

/-- Run start: IDLE passes to READY, and BREAK is taken at once when BRK is active (R151). -/
def startRun (k : Nat) (s : State) : State :=
  let ready := changeState .ready (startBlocks k s)
  if ready.station.brkActive then raiseLocal .brk ready else ready

/-! ## Clearing -/

/-- Whether CLEAR may remove a held local cause (R166). -/
def removable (s : State) : LocalCause → Bool
  | .brk => !s.station.brkActive
  | .mapFull => decide (s.map.entries.length < Config.mapCapacity)
  | .runLimit => false
  | _ => true

/-- The station queues RESUME with its own number when a removal has left no local cause of those held
before (R168). -/
def resumeOwn (before : List LocalCause) (s : State) : State :=
  if !before.isEmpty && s.station.locals.isEmpty then enqueue (.resume s.own) s else s

/-- CLEAR, with force also CLEAR FORCE (R166, R167): one removal, then the set acts on the state and RESUME
is sent when it applies. -/
def clearCauses (force : Bool) (s : State) : State :=
  if s.station.setEmpty then s
  else
    let removed := s.setStation { s.station with
      locals := s.station.locals.filter (fun c => !removable s c)
      peers := if force then [] else s.station.peers }
    resumeOwn s.station.locals (settleRemoval removed)

/-! ## Halts, resumptions and GO from the line -/

/-- A HALT with origin and level `h` from the peer `e` (R170, R171). -/
def takeHalt (e : ListenEntry) (h : PeerHalt) (s : State) : State :=
  if s.inRun && h.origin != s.own && !s.station.peers.any (fun p => p.origin == h.origin) then
    if s.station.peers.length < Config.haltCapacity then
      let record : PeerHalt := ⟨h.origin, if e.follow = .soft then .soft else h.level⟩
      enqueue (.halt record.origin record.level)
        (actLevel record.level (s.setStation (s.station.takePeer record)))
    else raiseSoft .peerOverflow s
  else s

/-- A RESUME of origin `x` from any sender (R172). -/
def takeResume (x : Nat) (s : State) : State :=
  if s.station.peers.any (fun p => p.origin == x) then
    settleRemoval (enqueue (.resume x)
      (s.setStation { s.station with peers := s.station.peers.filter (fun p => p.origin != x) }))
  else s

/-! ## END -/

/-- ACTIVE and STAGED banks return to LOADED (R125). -/
def Bank.atEnd (b : Bank) : Bank :=
  if b.state = .active ∨ b.state = .staged then { b with state := .loaded } else b

/-- END in READY or STOPPED, in the order of R157. With no open package the next mark point of a forming
station is absent (R12). -/
def endRun (s : State) : State :=
  let closed := closeAtEnd s
  let unmarked := if closed.forming then closed.setMarks { closed.marks with next := none } else closed
  let banked := unmarked.setBanks (mapTable Bank.atEnd unmarked.banks)
  let paced := banked.setPace { banked.pace with arrivals := [] }
  let before := paced.station.locals
  let emptied := paced.setStation { paced.station with locals := [], peers := [] }
  let resumed := resumeOwn before emptied
  changeState .idle (resumed.setStation resumed.station.noteEmptied)

end Sys2Proof.Machine
end

