-- ==== Sys2Proof/Machine/Metering.lean ====
section
/-!
DEFINITION. What a pulse, an edge or a stroke does (chapters 1 to 4): the position, the slip check, the
twist window's close, the row's close, pending arrivals and the local point entries.
-/

namespace Sys2Proof.Machine

/-! ## Local point entries (R71 to R73) -/

/-- A DWELL at the run position: merged into the last local one at the same position, otherwise offered. -/
def writeDwell (s : State) : State :=
  match lastLocal .dwell s with
  | some e => if e.position = s.pos then mergeLocal .dwell s else offerPoint .dwell s
  | none => offerPoint .dwell s

/-- A JOIN at the run position: merged within 200 mm of the last local one, otherwise offered. -/
def writeJoin (s : State) : State :=
  match lastLocal .join s with
  | some e => if s.pos - e.position ≤ Config.joinMerge then mergeLocal .join s else offerPoint .join s
  | none => offerPoint .join s

/-! ## The twist window (R24 to R33) -/

/-- Step 3: the results of a closed window are stored (R28). -/
def Twist.store (t10 : Nat) (d10 e : Int) (c : WindowClass) (t : Twist) : Twist :=
  { t with lastT10 := some t10, lastD10 := d10, lastE := some e, lastClass := some c,
           windowCount := sat Config.count16 t.windowCount }

/-- A MINOR or MAJOR close extends the non-IN run and the major run (R29, R32). -/
def Twist.extendRun (isMajor : Bool) (t : Twist) : Twist :=
  { t with
    offStart := if t.offRun = 0 then t.windowStart else t.offStart
    offMajor := isMajor || (t.offRun != 0 && t.offMajor)
    offRun := sat Config.count8 t.offRun
    majorRun := if isMajor then sat Config.count8 t.majorRun else 0 }

/-- The open entry that a run of flagged windows or rows offers (R29, R57, R59). -/
def runEntry (kind : EntryKind) (start pos count : Nat) (isMajor : Bool) : MapEntry :=
  { kind, origin := 0, position := start, extent := pos - start,
    severity := if isMajor then .major else .minor, count, isOpen := true, forwarded := false,
    lastLocal := false }

/-- A run of flagged windows or rows at the map (R29, R30, R57 to R59): its open entry is extended, or,
when the run has reached `threshold`, an entry is offered. `nowMajor` is this window or row, `runMajor` the
run. -/
def runAtMap (kind : EntryKind) (start count threshold length : Nat) (nowMajor runMajor : Bool) (s : State) :
    State × List Handover :=
  if (s.openEntry kind).isSome then
    let r := extendEntry kind s.pos count nowMajor s
    (r.1, r.2.toList.map .upgraded)
  else if threshold ≤ length then
    let r := offerRaw (runEntry kind start s.pos count runMajor) s
    (r.1, r.2.toList.map .inserted)
  else (s, [])

/-- Step 4: the non-IN run, the TWIST entry and TWIST_LIMIT (R29 to R32). -/
def twistRunStep (c : WindowClass) (s : State) : State × List Handover :=
  match c with
  | .inTol =>
    let ended := endTwistRun s
    (ended.1, ended.2.toList.map .closed)
  | .minor | .major =>
    let isMajor := c == .major
    let t := s.twist.extendRun isMajor
    let persistence := s.twistPage.persistence
    let r := runAtMap .twist t.offStart t.offRun persistence t.offRun isMajor t.offMajor (s.setTwist t)
    (if isMajor && decide (persistence ≤ t.majorRun) then raiseSoft .twistLimit r.1 else r.1, r.2)

/-- The close of a twist window in the order of R24. A cause raised in step 4 changes the station state
there, and the PACE report of that change carries the own_offer of before step 7 (log entry 49). `inRun`
says that the pulse was taken in RUN (R33). -/
def closeWindow (inRun : Bool) (s : State) : State :=
  let page := s.twistPage
  let eff := s.twist.eff10.getD page.target10
  let t10 := measureT10 s.cfg.ppr s.twist.pulses s.twist.width
  let d10 : Int := (t10 : Int) - eff
  let e := deviationE d10 eff
  let c := classify page.tolM page.tolX e
  let ran := twistRunStep c (s.setTwist (s.twist.store t10 d10 e c))
  let trimmed := if inRun then
      ran.1.setTwist { ran.1.twist with trim := nextTrim ran.1.twist.trim e page.gain } else ran.1
  let opened := openWindow (retarget trimmed)
  let told := tellAll ran.2 opened
  if told.forming then told else (switchStaged told.pos told).1

/-- Twist regulation's part of an active-source pulse (R24). -/
def twistPulse (step : Nat) (inRun : Bool) (s : State) : State :=
  if s.isLaying && s.twist.windowOpen then
    let grown := s.setTwist { s.twist with width := s.twist.width + step }
    if s.twistPage.lw * 1000 ≤ grown.twist.width then closeWindow inRun grown else grown
  else s

/-! ## The row (R50) -/

/-- The knot run takes a row (R57, R58). -/
def Knot.knotRow (r : RowResult) (k : Knot) : Knot :=
  if r.knotFlag then
    { k with knotStart := if k.knotRun = 0 then k.rowStart else k.knotStart
             knotMajor := r.major || (k.knotRun != 0 && k.knotMajor)
             knotRun := sat Config.count16 k.knotRun }
  else { k with knotRun := 0, knotMajor := false }

/-- The mesh run takes a row (R59). -/
def Knot.meshRow (r : RowResult) (k : Knot) : Knot :=
  if r.meshFlag then
    { k with meshStart := if k.meshRun = 0 then k.rowStart else k.meshStart
             meshRun := sat Config.count8 k.meshRun }
  else { k with meshRun := 0 }

/-- Closing an open entry as a hand-over. -/
def closeAsHandover (kind : EntryKind) (s : State) : State × List Handover :=
  let r := closeEntry kind s
  (r.1, r.2.toList.map .closed)

/-- Step 5 of R50: the knot run, the KNOT entry and KNOT_RUN (R57, R58, R60). -/
def knotRunStep (page : KnotPage) (r : RowResult) (s : State) : State × List Handover :=
  let k := s.knot.knotRow r
  let s1 := s.setKnot k
  if r.knotFlag then
    let out := runAtMap .knot k.knotStart (min 255 k.knotRun) page.duration k.knotRun r.major k.knotMajor s1
    (if page.duration ≤ k.knotRun ∧ page.runLimit ≤ k.knotRun then raiseSoft .knotRun out.1 else out.1, out.2)
  else closeAsHandover .knot s1

/-- Step 6 of R50: the mesh run and the MESH entry (R59). -/
def meshRunStep (page : KnotPage) (r : RowResult) (s : State) : State × List Handover :=
  let k := s.knot.meshRow r
  let s1 := s.setKnot k
  if r.meshFlag then runAtMap .mesh k.meshStart k.meshRun page.duration k.meshRun false false s1
  else closeAsHandover .mesh s1

/-- The close of a row in the order of R50. -/
def closeRow (s : State) : State :=
  let page := s.knotPage
  let r := rowResult page s.knot s.pos
  let knotted := knotRunStep page r (s.setKnot (s.knot.record page s.pos))
  let meshed := meshRunStep page r knotted.1
  let opened := meshed.1.setKnot (meshed.1.knot.nextRow meshed.1.pos)
  let told := tellAll (knotted.2 ++ meshed.2) opened
  if told.forming then told else (switchStaged told.pos told).1

/-- A row stroke (R50): ignored unless a row is open in RUN or EASING and the station is not dwelling. -/
def rowStroke (s : State) : State :=
  if s.isNetting && s.station.state.driven && s.knot.rowOpen && !s.length.dwelling then closeRow s else s

/-- A section edge (R49). DESIGN CHOICE (log entry 61): after a bank switch inside a row the edges are counted
by the new bank's n at once, by R49's active bank; step 4 of R64 could also be read as keeping the old n until
that row closes. -/
def sectionEdge (i : Fin 8) (s : State) : State :=
  if s.isNetting && s.knot.rowOpen && !s.length.dwelling && decide (i.val < s.knotPage.sections) then
    s.setKnot { s.knot with
      counters := s.knot.counters.set i.val (sat Config.count16 (s.knot.counters.get i)) }
  else s

/-- A spindle pulse (R23). -/
def spindlePulse (s : State) : State :=
  if s.isLaying && s.twist.windowOpen && !s.length.dwelling then
    s.setTwist { s.twist with pulses := sat 4294967295 s.twist.pulses }
  else s

/-! ## Pending arrivals (R139 to R145) -/

/-- Take-up of a feeder's listen entry. -/
def takeUpOf (n : Nat) (s : State) : Nat :=
  match s.peerOf n with
  | some e => e.takeUp
  | none => 1000

/-- The list's order: ascending remaining, ties in order of acceptance (R140). -/
def Arrival.before (a b : Arrival) : Bool :=
  decide (a.remaining < b.remaining) || (decide (a.remaining = b.remaining) && decide (a.accepted ≤ b.accepted))

/-- Insertion in the list's order. -/
def insertArrival (a : Arrival) : List Arrival → List Arrival
  | [] => [a]
  | x :: xs => if x.before a then x :: insertArrival a xs else a :: x :: xs

/-- The list put in order. -/
def sortArrivals (l : List Arrival) : List Arrival := l.foldr insertArrival []

/-- An arrived record is offered to the map at the run position (R74, R142). -/
def offerArrival (s : State) (a : Arrival) : State :=
  if a.origin = s.own then countDropped s
  else
    (offerEntry { kind := a.kind, origin := a.origin, position := s.pos,
                  extent := a.extent * 1000 / takeUpOf a.feeder s, severity := a.severity,
                  count := a.count, isOpen := false, forwarded := false, lastLocal := false } s).1

/-- Every record comes nearer by one step, converted by its feeder's take-up (R141). -/
def reduceArrivals (step : Nat) (s : State) : List Arrival :=
  sortArrivals (s.pace.arrivals.map (fun a =>
    { a with remaining := a.remaining - (step * takeUpOf a.feeder s / 1000 : Nat) }))

/-- Pending arrivals' part of an active-source pulse (R140 to R142). -/
def arrivalsPulse (step : Nat) (s : State) : State :=
  let reduced := reduceArrivals step s
  let left := s.setPace { s.pace with arrivals := reduced.filter (fun a => decide (0 < a.remaining)) }
  (reduced.filter (fun a => decide (a.remaining ≤ 0))).foldl offerArrival left

/-- A record the full list may give up: MINOR, neither JOIN nor CHANGE (R144). -/
def Arrival.light (a : Arrival) : Bool := a.severity == .minor && a.kind != .join && a.kind != .change

/-- The list less its light record of largest remaining, the later accepted among equals; the list is in
order, so that is the last light one (R144). -/
def dropLight (l : List Arrival) : Option (List Arrival) := (takeLast Arrival.light l).map (·.2)

/-- The pending list counts a hand-off it lost. -/
def countArrivalDropped (s : State) : State :=
  s.setPace { s.pace with arrivalsDropped := sat Config.count16 s.pace.arrivalsDropped }

/-- A record joins the list, or is weighed when the list is full (R140, R144, R145). -/
def joinArrivals (a : Arrival) (s : State) : State :=
  if s.pace.arrivals.length < Config.arrivalCapacity then
    s.setPace { s.pace with arrivals := insertArrival a s.pace.arrivals }
  else if a.light then countArrivalDropped s
  else match dropLight s.pace.arrivals with
    | some rest => countArrivalDropped (s.setPace { s.pace with arrivals := insertArrival a rest })
    | none => raiseSoft .handoffLost (countArrivalDropped s)

/-- A HANDOFF is accepted (R139): at remaining 0 it arrives at once. -/
def acceptHandoff (e : ListenEntry) (h : HandoffRead) (s : State) : State :=
  let remaining := max 0 ((e.path : Int) - h.travel) * 1000
  let a : Arrival := { kind := h.kind, origin := h.origin, severity := h.severity, count := h.count,
                       extent := h.extent, feeder := e.number, remaining, accepted := s.pace.nextAccept }
  let numbered := s.setPace { s.pace with nextAccept := s.pace.nextAccept + 1 }
  if remaining = 0 then offerArrival numbered a else joinArrivals a numbered

/-! ## The slip check (R4 to R8) -/

/-- Slip of a span in permille (R5). -/
def slipOf (la lb : Nat) : Nat := (max la lb - min la lb) * 1000 / max la lb

/-- A span close (R5, R6, R8). -/
def closeSpan (s : State) : State :=
  let slip := slipOf s.length.la s.length.lb
  let limit := match s.length.source with
    | .a => s.cfg.slipTol
    | .b => 2 * s.cfg.slipTol
  let bad := if limit < slip then s.length.badSpans + 1 else 0
  let next := { s.length with lastSlip := slip, la := 0, lb := 0, badSpans := bad }
  if limit < slip ∧ s.cfg.slipPersist ≤ bad then
    match s.length.source with
    | .a => (offerEntry (.offerOf .slip s.pos)
        (s.setLength { next with source := .b, switched := true, degraded := true, badSpans := 0 })).1
    | .b => raiseSoft .slipLost (s.setLength { next with badSpans := 0 })
  else s.setLength next

/-- A pulse of a source adds its step to that source's span accumulator (R4). -/
def Length.addSpan (src : Source) (step : Nat) (l : Length) : Length :=
  match src with
  | .a => { l with la := l.la + step }
  | .b => { l with lb := l.lb + step }

/-- The active source's span accumulator. -/
def Length.activeSpan (l : Length) : Nat :=
  match l.source with
  | .a => l.la
  | .b => l.lb

/-- The slip check's part of an active-source pulse (R4, R5). -/
def slipPulse (step : Nat) (s : State) : State :=
  if s.cfg.stepB = 0 then s
  else
    let added := s.setLength (s.length.addSpan s.length.source step)
    if s.cfg.slipSpan * 1000 ≤ added.length.activeSpan then closeSpan added else added

/-! ## Pulses of the sources -/

/-- A pulse counted in RUN ends a dwell and reloads the dwell countdown (R9, R11). -/
def dwellPulse (s : State) : State :=
  if s.station.state = .run then loadDwell (clearDwell s) else s

/-- The position advances by one step and saturates; the crossing of 4,000,000,000 mm raises RUN_LIMIT
(R1, R2). -/
def advance (step : Nat) (s : State) : State :=
  let moved := s.setLength { s.length with acc := min Config.accMax (s.length.acc + step) }
  if s.pos < Config.runLimit ∧ Config.runLimit ≤ moved.pos then raiseSoft .runLimit moved else moved

/-- A pulse of the active source, handed to every block that measures along the product (R1 to R3); the
blocks take it in this order, the slip check last (R6, log entry 9). Retention tests the entries that were
closed before this pulse (R82), and the marks are tested against the package open once the former has taken
the pulse, each fire having tested those of the package it closed (R15). -/
def activePulse (s : State) : State :=
  if s.inRun then
    let step := s.activeStep
    let inRun := s.station.state == .run
    let moved := advance step (dwellPulse s)
    slipPulse step (arrivalsPulse step (testMark (formerPulse (twistPulse step inRun (retain s.pos moved)))))
  else s

/-- A pulse of the non-active source reaches the slip check alone (R4). -/
def nonActivePulse (s : State) : State :=
  if s.inRun && !s.length.dwelling && s.cfg.stepB != 0 then
    match s.length.source with
    | .a => s.setLength (s.length.addSpan .b s.cfg.stepB)
    | .b => s.setLength (s.length.addSpan .a s.cfg.stepA)
  else s

/-- A JNI edge (R71). -/
def jniEdge (s : State) : State := if s.inRun then writeJoin s else s

/-- The dwell countdown reaches 0 in RUN (R10). -/
def beginDwell (s : State) : State :=
  if s.station.state = .run ∧ s.length.dwelling = false then
    writeDwell (s.setLength { s.length with dwelling := true, dwellCount := 0 })
  else s

end Sys2Proof.Machine
end

