-- ==== Sys2Proof/Machine/Tick.lean ====
section
/-!
DEFINITION. The 100 ms regulation tick (R9, R10, R38, R39, R130 to R137): dwell countdown, stale countdowns,
offers and target pace, the ramp step, the pace period and the set-point link.
-/

namespace Sys2Proof.Machine

/-- The dwell countdown falls by 1 in RUN and, reaching 0, begins a dwell (R9, R10). -/
def tickDwell (s : State) : State :=
  if s.station.state = .run ∧ s.length.dwelling = false ∧ 0 < s.length.dwellCount then
    let fallen := s.setLength { s.length with dwellCount := s.length.dwellCount - 1 }
    if fallen.length.dwellCount = 0 then beginDwell fallen else fallen
  else s

/-- A peer's stale countdown falls by 1; at 0 the peer is stale (R132). -/
def ListenEntry.tick (e : ListenEntry) : ListenEntry :=
  if e.status = .peer ∧ 0 < e.staleCount then
    { e with staleCount := e.staleCount - 1, stale := e.stale || decide (e.staleCount = 1) }
  else e

/-- A peer's contribution in this station's measure (R133). -/
def ListenEntry.contribution (e : ListenEntry) : Nat :=
  match e.lastReport with
  | some r =>
    if e.stale then 0
    else if r.state = .run then
      match e.role with
      | .feed => r.feedOffer * 1000 / e.takeUp
      | .take => r.takeOffer * e.takeUp / 1000
    else 0
  | none => 0

/-- The least of an offer and the contributions of some peers. -/
def leastOf (own : Nat) (l : List ListenEntry) : Nat := l.foldl (fun acc e => min acc e.contribution) own

/-- Offers and target pace (R134). They are held between ticks, the target pace too when the station leaves
RUN in between (log entry 53). -/
def computeOffers (s : State) : State :=
  let own := s.twist.ownOffer
  s.setPace { s.pace with
    feedOffer := leastOf own (s.peers.filter (fun e => e.role == .feed))
    takeOffer := leastOf own (s.peers.filter (fun e => e.role == .take))
    target := if s.station.state = .run then leastOf own s.peers else 0 }

/-- One ramp step of the run pace in RUN (R135). -/
def rampStep (up down target run : Nat) : Nat :=
  if run < target then min target (run + up) else if target < run then max target (run - down) else run

/-- The ramp step of a tick; in EASING the tick that leaves the run pace at 0 passes to STOPPED (R135,
R136, R154). -/
def tickRamp (s : State) : State :=
  match s.station.state with
  | .run => s.setPace { s.pace with
      run := rampStep s.cfg.rampUp s.cfg.rampDown s.pace.target s.pace.run }
  | .easing =>
    let eased := s.setPace { s.pace with run := s.pace.run - s.cfg.stopRamp }
    if eased.pace.run = 0 then enterStopped eased else eased
  | _ => s

/-- The pace period countdown falls by 1 and refreshes the slot at 0 (R130). -/
def tickPeriod (s : State) : State :=
  if 0 < s.pace.period then
    let fallen := s.setPace { s.pace with period := s.pace.period - 1 }
    if fallen.pace.period = 0 then refreshPace fallen else fallen
  else s

/-- The pace block's work in one tick, in the order of R136. -/
def tickPace (s : State) : State :=
  if s.station.state.reports then
    let counted := s.setPace { s.pace with listen := mapTable ListenEntry.tick s.pace.listen }
    tickPeriod (tickRamp (computeOffers counted))
  else s

/-- A word of the set-point link as 16 bits, most significant first (R39). -/
def wordBits (n : Nat) : List Bool := (List.range 16).map (fun i => (BitVec.ofNat 16 n).getMsbD i)

/-- What a transfer puts on the link: the capstan word, the spindle word, and the pulse on DLT (R39). -/
def linkItems (capstan spindle : Nat) : List LinkItem :=
  (wordBits capstan ++ wordBits spindle).map .bit ++ [.latch]

/-- Both words are transferred (R39). Afterwards DCK and DLT stand low again and DDA holds the last bit sent
(log entry 47). -/
def Twist.transfer (capstan spindle : Nat) (t : Twist) : Twist :=
  { t with linkCapstan := capstan, linkSpindle := spindle, link := linkItems capstan spindle
           dck := false, dda := (BitVec.ofNat 16 spindle).getLsbD 0, dlt := false }

/-- S_base and S_cmd of this tick (R38), and the transfer when either word has changed (R39). -/
def tickSetpoint (s : State) : State :=
  let base := if s.isLaying && s.station.state.driven then baseRate s.pace.run (s.twist.eff10.getD 0) else 0
  let cmd := if s.isLaying && s.station.state.driven then commandRate s.cfg.smax base s.twist.trim else 0
  let t := { s.twist with sBase := base, sCmd := cmd }
  s.setTwist (if s.pace.run = t.linkCapstan ∧ cmd = t.linkSpindle then t else t.transfer s.pace.run cmd)

/-- The regulation tick. While RSTn is low no tick is taken (R197). -/
def tick (s : State) : State :=
  if s.start.phase = .inReset then s else tickSetpoint (tickPace (tickDwell s))

/-- A peer's stale countdown reaches 0 (R132). -/
def staleAt (i : Fin 6) (s : State) : State :=
  let e := s.pace.listen.get i
  if s.station.state.reports && e.status == .peer then
    s.setPace { s.pace with listen := s.pace.listen.set i.val { e with staleCount := 0, stale := true } }
  else s

end Sys2Proof.Machine
end

