-- ==== Sys2Proof/Machine/PlyLine.lean ====
section
/-!
DEFINITION. The ply line as a medium (chapter 9): the bytes of a frame, eligibility and queue order,
accesses and bursts, collisions, and the receive checks.
-/

namespace Sys2Proof.Machine

/-! ## Frames as bytes (R176, R178 to R180) -/

/-- Kind code of a queued frame. -/
def TxBody.kind : TxBody → BitVec 4
  | .halt _ _ => 2 | .resume _ => 3 | .go _ => 4 | .handoff _ => 5 | .pkg _ => 6 | .answer _ _ _ => 8

/-- Destination: a HANDOFF and an ANSWER go to one station, the other kinds to all (R178 to R180, R190). -/
def TxBody.dest : TxBody → Nat
  | .handoff c => c.dest
  | .answer d _ _ => d
  | _ => 0

/-- The HANDOFF payload (R179). -/
def HandoffCopy.payload (c : HandoffCopy) : List Byte :=
  byte (Code.entryKind c.kind) ++ byte c.origin ++ byte (Code.severity c.severity) ++ byte c.count
    ++ be 4 c.extent ++ beInt 4 c.travel

/-- The PKG payload (R180). -/
def PkgSummary.payload (p : PkgSummary) : List Byte :=
  be 2 p.number ++ byte (Code.packageType p.type) ++ byte p.bank ++ be 2 p.productCode ++ be 4 p.startPos
    ++ be 4 p.length ++ byte p.joinCount ++ be 2 p.defectCount ++ byte (Code.grade p.grade)
    ++ byte (Code.closeReason p.reason)

/-- The payload of a queued frame. -/
def TxBody.payload : TxBody → List Byte
  | .halt o l => byte o ++ byte (Code.level l)
  | .resume o => byte o
  | .go o => byte o
  | .handoff c => c.payload
  | .pkg p => p.payload
  | .answer _ bytes _ => bytes

/-- The bytes a queued frame puts on the line; bit 7 of byte 0 is set for an URGENT kind (R176). -/
def TxBody.bytes (own : Nat) (b : TxBody) : List Byte :=
  frameBytes (if b.urgent then 8 else 0) b.kind (BitVec.ofNat 8 own) (BitVec.ofNat 8 b.dest) b.payload

/-- The bytes of a PACE frame. -/
def PaceReport.bytes (own : Nat) (r : PaceReport) : List Byte :=
  frameBytes 0 1 (BitVec.ofNat 8 own) 0 r.payload

/-- A run of bytes as LTX carries it, each with its start and stop bit (R175). -/
def onLine (bs : List Byte) : List LineByte := bs.map LineByte.send

/-! ## Gaining the line (R181, R182, R184) -/

/-- Which frame would go next. -/
inductive Pick where
  | queued (urgent : Bool)
  | pace
  deriving DecidableEq, Repr

/-- The first eligible frame in queue order: URGENT frames, then, while the normal hold is clear, queued
NORMAL frames and last the pace slot (R182, R184). -/
def Ply.pick (p : Ply) : Option Pick :=
  if p.queue.any (fun f => f.body.urgent) then some (.queued true)
  else if p.hold then none
  else if !p.queue.isEmpty then some (.queued false)
  else if p.paceWaiting.isSome then some .pace
  else none

/-- A frame is in flight. -/
def Ply.sending (p : Ply) : Bool := p.queue.any (fun f => f.inFlight) || p.paceFlight.isSome

/-- The access delay of a pick in slots (R181). -/
def accessDelay (own : Nat) : Pick → Nat
  | .queued true => 2 + own
  | _ => 66 + own

/-- Travel at the start of an attempt, clamped to a signed 32-bit value (R80, R179). -/
def travelAt (pos entryEnd : Nat) : Int := clampInt (-2147483648) 2147483647 ((pos : Int) - entryEnd)

/-- A HANDOFF's travel is written at the start of each attempt. -/
def TxBody.fill (pos : Nat) : TxBody → TxBody
  | .handoff c => .handoff { c with travel := travelAt pos c.entryEnd }
  | b => b

/-- Puts the first queued frame of a class in flight; the second part is the frame. -/
def launch (urgent : Bool) (pos : Nat) : List QFrame → Option (TxBody × List QFrame)
  | [] => none
  | f :: fs =>
    if f.body.urgent = urgent then
      some (f.body.fill pos, { f with body := f.body.fill pos, inFlight := true } :: fs)
    else (launch urgent pos fs).map (fun r => (r.1, f :: r.2))

/-- Starts the frame picked as number `n` of the access: LTE high, its bytes on LTX, the idle count at 0 by
its own start bit (R175, R181). -/
def sendPick (pick : Pick) (n : Nat) (s : State) : State :=
  match pick with
  | .queued urgent =>
    match launch urgent s.pos s.ply.queue with
    | some (b, q) => s.setPly { s.ply with
        queue := q, access := some n, lte := true, wire := onLine (b.bytes s.own), idle := 0 }
    | none => s
  | .pace =>
    match s.ply.paceWaiting with
    | some f => s.setPly { s.ply with
        paceWaiting := none, paceFlight := some f, access := some n, lte := true
        wire := onLine (f.report.bytes s.own), idle := 0 }
    | none => s

/-- An access begins with the first eligible frame once the idle count has reached its access delay (R181).
Every delay lies above the 2 slots that make the line idle, so nothing is sent before the line has been seen
idle (R175). Short of that the command changes nothing (log entry 15). -/
def startAccess (s : State) : State :=
  if s.ply.isOn && s.ply.access.isNone then
    match s.ply.pick with
    | some p => if accessDelay s.own p ≤ s.ply.idle then sendPick p 1 s else s
    | none => s
  else s

/-- Frames of one access at most: the burst taken, or 1 where none was (R196). -/
def burstOf (s : State) : Nat := s.cfg.burst

/-- The access ends: LTE low, LTX at idle level. -/
def Ply.endAccess (p : Ply) : Ply := { p with access := none, lte := false, wire := [] }

/-- After a frame sent without collision the access goes on into the 2-slot gap when fewer than burst
frames have been sent and an eligible frame waits, and ends otherwise (R182). -/
def continueOrEnd (burst : Nat) (p : Ply) : Ply :=
  if p.access.getD 0 < burst ∧ p.pick.isSome then { p with wire := [] } else p.endAccess

/-- Tells a frame's owner that it was sent (R183): a PKG's record becomes REPORTED (R93), the ANSWER to an
accepted RESTART has left (R158). -/
def reportSent (b : TxBody) (s : State) : State :=
  match b with
  | .pkg p => s.setFormer { s.former with table := s.former.table.map (fun r =>
      if r.number = p.number ∧ r.state = .closed then { r with state := .reported, report := none } else r) }
  | .answer _ _ true => s.setStation { s.station with answerGone := true }
  | _ => s

/-- The last byte of the frame in flight leaves without collision (R182, R183, R186). -/
def frameSent (s : State) : State :=
  match takeFirst (fun f => f.inFlight) s.ply.queue with
  | some (f, rest) =>
    let p := { s.ply with queue := rest, idle := 0, hold := s.ply.hold || !f.body.urgent }
    reportSent f.body (s.setPly (continueOrEnd (burstOf s) p))
  | none =>
    if s.ply.paceFlight.isSome then
      s.setPly (continueOrEnd (burstOf s) { s.ply with paceFlight := none, idle := 0, hold := true })
    else s

/-- The gap inside a burst ends: the first eligible frame at that moment starts, or the access ends when
none is left (R182, and the row BURST_NEXT_FRAME of the command table, which puts that moment after the gap). -/
def nextInBurst (s : State) : State :=
  match s.ply.access with
  | some n =>
    if s.ply.sending then s
    else match s.ply.pick with
      | some p => if n < burstOf s then sendPick p (n + 1) s else s.setPly s.ply.endAccess
      | none => s.setPly s.ply.endAccess
  | none => s

/-! ## Collisions (R183, R186) -/

/-- A collided frame of the queue keeps its place with one more collision, or is dropped at 16; the second
part is the body dropped. -/
def collideQueue : List QFrame → List QFrame × Option TxBody
  | [] => ([], none)
  | f :: fs =>
    if f.inFlight then
      if f.collisions + 1 < Config.collisionLimit then
        ({ f with collisions := f.collisions + 1, inFlight := false } :: fs, none)
      else (fs, some f.body)
    else
      let r := collideQueue fs
      (f :: r.1, r.2)

/-- The count of frames dropped after 16 collisions. -/
def Ply.countDrop (p : Ply) : Ply := { p with collisionDrops := sat Config.count16 p.collisionDrops }

/-- A collided PACE report goes back to the waiting place unless a newer one waits there; at 16 collisions
it is dropped (R186). -/
def Ply.collidePace (f : PaceFrame) (p : Ply) : Ply :=
  let freed := { p with paceFlight := none }
  if f.collisions + 1 < Config.collisionLimit then
    { freed with paceWaiting := match p.paceWaiting with
        | some newer => some newer
        | none => some { f with collisions := f.collisions + 1 } }
  else freed.countDrop

/-- A read-back mismatch stops the frame in flight and ends the access (R183). -/
def collide (s : State) : State :=
  if s.ply.sending then
    let p := { s.ply.endAccess with collisions := sat Config.count16 s.ply.collisions, idle := 0 }
    match s.ply.paceFlight with
    | some f => s.setPly (p.collidePace f)
    | none =>
      let r := collideQueue s.ply.queue
      match r.2 with
      | none => s.setPly { p with queue := r.1 }
      | some b => reportDrop b (s.setPly { p.countDrop with queue := r.1 })
  else s

/-! ## The idle count and the normal hold -/

/-- The idle count reaches 128: the normal hold clears (R182). -/
def holdTimeout (s : State) : State :=
  if s.ply.isOn && !s.ply.sending then
    s.setPly { s.ply with idle := max s.ply.idle Config.holdIdle, seenIdle := true, hold := false }
  else s

/-- One slot passes in which no start bit begins: the idle count rises, and at 128 the hold clears (R175,
R182). This is what the part does when no command waits (log entry 10). -/
def idleSlot (s : State) : State :=
  if s.ply.isOn && !s.ply.sending then
    let idle := sat 255 s.ply.idle
    s.setPly { s.ply with
      idle, seenIdle := s.ply.seenIdle || decide (2 ≤ idle)
      hold := s.ply.hold && decide (idle < Config.holdIdle) }
  else s

/-! ## Receive checks (R187, R188) -/

/-- A frame fails a receive check: counted, and captured when no first error is held. -/
def lineError (e : LineError) (byte0 byte1 : Nat) (s : State) : State :=
  s.setPly { s.ply with
    lineErrors := sat Config.count16 s.ply.lineErrors
    firstError := match s.ply.firstError with
      | some f => some f
      | none => some ⟨e, byte0, byte1⟩ }

/-- The payload length a kind demands (R176): test 4 of R187. -/
def sizeFits (kind len : Nat) : Bool :=
  match kind with
  | 1 => len == 24
  | 2 => len == 2
  | 3 | 4 => len == 1
  | 5 => len == 12
  | 6 => len == 19
  | 7 => decide (2 ≤ len)
  | _ => decide (4 ≤ len)

/-- Byte 0 of a received frame. -/
def rxByte0 (kind : BitVec 4) (f : RxFrame) : Nat := (f.top ++ kind).toNat

/-- Where a frame with a good check ends. -/
inductive RxFate where
  | error (e : LineError)
  | otherStation
  | clash
  | received
  deriving DecidableEq, Repr

/-- The tests of R187 in order, and the set-aside and clash of R187 and R188. -/
def rxFate (own : Nat) (kind : BitVec 4) (f : RxFrame) : RxFate :=
  if 24 < f.payload.length then .error .length
  else if kind = 0 ∨ 8 < kind then .error .kind
  else if !sizeFits kind.toNat f.payload.length then .error .size
  else if !isStation f.sender.toNat || decide (62 < f.dest.toNat) then .error .address
  else if f.dest ≠ 0 ∧ f.dest.toNat ≠ own then .otherStation
  else if f.sender.toNat = own then .clash
  else .received

/-- A frame's end is seen when the idle count reaches 2 (R175); one that passed the length, check and kind
tests clears the normal hold, whatever its destination (R182). -/
def hearFrame (fate : RxFate) (s : State) : State :=
  s.setPly { s.ply with
    idle := 2
    hold := match fate with
      | .error .length | .error .check | .error .kind => s.ply.hold
      | _ => false }

/-- Bytes that end on the line before it has been seen idle since the interface came on are not received;
their end is the first idle gap (R175, log entry 56). -/
def firstGap (s : State) : State := s.setPly { s.ply with idle := 2, seenIdle := true }

/-- A frame whose length is too short for the header shows 0 for a byte it does not have (R187). -/
def byteAt (i : Nat) (bs : List Byte) : Nat := (bs.getD i 0).toNat

/-- Test 1 of R187 on a run of bytes: at least 6, byte 3 at most 24, and 6 + byte 3 in all. -/
def lengthFails (bs : List Byte) : Bool :=
  decide (bs.length < 6) || decide (24 < byteAt 3 bs) || decide (bs.length ≠ 6 + byteAt 3 bs)

/-- Test 2 of R187: the check bytes differ from the check over the bytes before them. -/
def checkFails (bs : List Byte) : Bool :=
  decide (field (bs.length - 2) 2 bs ≠ (checkOf (bs.take (bs.length - 2))).toNat)

/-- The frame a run of bytes with a good length and check spells: its kind and its parts. -/
def frameOf (bs : List Byte) : BitVec 4 × RxFrame :=
  let b0 : Byte := bs.getD 0 0
  (b0.extractLsb' 0 4,
   { top := b0.extractLsb' 4 4, sender := bs.getD 1 0, dest := bs.getD 2 0,
     payload := slice 4 (bs.length - 6) bs })

end Sys2Proof.Machine
end

