-- ==== Sys2Proof/Machine/Answers.lean ====
section
/-!
DEFINITION. What the station shows in its answers (R193, R194, R189, R204): the STATUS pages, LINE, MAP,
PACKAGE, PEERS and BANK_READ data, each the bytes R177 codes.
-/

namespace Sys2Proof.Machine

/-! ## STATUS (R193) -/

/-- A cause and its origin. -/
def causeBytes (h : Option HeldCause) : List Byte := byte (Code.cause h) ++ byte (Code.origin h)

/-- An optional number, absent as 0. -/
def orZero (o : Option Nat) : Nat := o.getD 0

/-- A flag as a byte. -/
def flagByte (b : Bool) : List Byte := byte (flag b)

/-- Page 0: station control, start result, straps and kind (R173, R204). -/
def statusStation (s : State) : List Byte :=
  byte (Code.stationState s.station.state) ++ flagByte s.station.restartPending
    ++ byte (Code.startReason s.start.reason) ++ byte s.start.clamped
    ++ be 2 (setOf (s.station.locals.map (fun c => c.rank - 1))) ++ byte s.station.peers.length
    ++ causeBytes (s.station.inService s.own) ++ causeBytes s.station.firstCause
    ++ causeBytes s.station.prevFirst ++ flagByte s.station.den ++ flagByte s.station.alm
    ++ byte s.own ++ byte (if s.start.settings.isSome then Code.machineKind s.cfg.kind else 0)
    ++ flagByte s.cfg.forming

/-- Page 1: the peer halt records in order of taking, eight places. -/
def statusHalts (s : State) : List Byte :=
  let held := s.station.peers.flatMap (fun p => byte p.origin ++ byte (Code.level p.level))
  (held ++ List.replicate 16 0).take 16

/-- Page 2: length metering. -/
def statusLength (s : State) : List Byte :=
  be 4 s.pos ++ byte (Code.source s.length.source) ++ flagByte s.length.degraded
    ++ flagByte s.length.dwelling ++ be 2 s.length.lastSlip ++ byte s.length.badSpans
    ++ be 3 s.marks.counter ++ flagByte (s.marks.interval != 0) ++ be 2 s.marks.skipped

/-- Page 3: twist regulation; an absent class shows as IN (R28). -/
def statusTwist (s : State) : List Byte :=
  let t := s.twist
  be 2 (orZero t.lastT10) ++ beInt 3 t.lastD10 ++ beInt 2 (t.lastE.getD 0)
    ++ byte (Code.windowClass (t.lastClass.getD .inTol)) ++ be 2 t.windowCount ++ beInt 2 t.trim
    ++ be 2 (orZero t.eff10) ++ be 2 t.sCmd ++ be 2 t.ownOffer ++ flagByte t.windowOpen
    ++ flagByte (s.openEntry .twist).isSome

/-- Page 4: the last row, statistics and runs. -/
def statusRow (s : State) : List Byte :=
  let k := s.knot
  be 2 k.last.missing ++ flagByte k.last.knotFlag ++ flagByte k.last.major ++ flagByte k.last.meshFlag
    ++ be 4 (orZero k.last.advance) ++ be 2 (orZero k.last.deviation) ++ be 2 k.rowsClosed
    ++ be 2 k.knotRows ++ be 2 k.meshRows ++ be 2 k.knotRun ++ byte k.meshRun

/-- Page 5: references and open entries. -/
def statusReferences (s : State) : List Byte :=
  be 4 (orZero s.knot.firstRef) ++ be 4 (orZero s.knot.prevAdvance)
    ++ flagByte (s.openEntry .knot).isSome ++ flagByte (s.openEntry .mesh).isSome

/-- Page 8: the run map. -/
def statusMap (s : State) : List Byte :=
  byte s.map.entries.length ++ flagByte (decide (Config.mapCapacity ≤ s.map.entries.length))
    ++ flagByte (s.openEntry .twist).isSome ++ flagByte (s.openEntry .knot).isSome
    ++ flagByte (s.openEntry .mesh).isSome ++ be 2 s.map.dropped ++ be 2 s.map.evicted

/-- Page 9: the package former; zeros for the open package when none is open. -/
def statusFormer (s : State) : List Byte :=
  (match s.openPackage with
    | some p => be 2 p.number ++ byte (Code.packageType p.type) ++ be 4 p.startPos
    | none => List.replicate 7 0)
    ++ byte s.former.table.length ++ be 2 s.former.nextNumber ++ byte s.former.cuts.length
    ++ be 2 s.former.reportsLost ++ be 2 s.former.cutsRefused

/-- Page 10: the first three pending cuts (R112, R193). DESIGN CHOICE (log entry 62): a position above
4,294,967,295 goes as its low 32 bits. -/
def statusCuts (s : State) : List Byte :=
  let shown := (s.former.cuts.take 3).flatMap (fun c =>
    be 4 c.position ++ byte (Code.cutPurpose c.purpose) ++ byte (flag c.firm + 2 * flag c.waiting))
  (shown ++ List.replicate 18 0).take 18

/-- Page 11: the banks; none is shown as 255. -/
def statusBanks (s : State) : List Byte :=
  s.banks.toList.flatMap (fun b => byte (Code.bankState b.state))
    ++ s.banks.toList.flatMap (fun b => byte (setOf b.writtenSet))
    ++ byte (s.activeBank.getD 255) ++ byte (s.stagedBank.getD 255)

/-- The indexes of the listen entries that satisfy `p`. -/
def listenIndexes (p : ListenEntry → Bool) (s : State) : List Nat :=
  (List.range 6).filter (fun i => p (s.pace.listen.toList.getD i .reset))

/-- Page 12: pace and hand-off. -/
def statusPace (s : State) : List Byte :=
  let first : Int := match s.pace.arrivals with
    | a :: _ => a.remaining
    | [] => 0
  be 2 s.pace.feedOffer ++ be 2 s.pace.takeOffer ++ be 2 s.pace.target ++ be 2 s.pace.run
    ++ byte s.pace.listenFaults ++ byte (setOf (listenIndexes (fun e => e.status == .ignored) s))
    ++ byte (setOf (listenIndexes (fun e => e.status == .peer && e.stale) s))
    ++ byte s.pace.arrivals.length ++ beInt 4 (min 2147483647 first)
    ++ be 2 s.pace.arrivalsDropped ++ be 2 s.pace.handoffsIgnored

/-- STATUS page by number, 0..12. -/
def statusPage (s : State) : Nat → List Byte
  | 0 => statusStation s
  | 1 => statusHalts s
  | 2 => statusLength s
  | 3 => statusTwist s
  | 4 => statusRow s
  | 5 => statusReferences s
  | 6 => s.knot.overcount.toList.flatMap (be 2)
  | 7 => s.knot.counters.toList.flatMap (be 2)
  | 8 => statusMap s
  | 9 => statusFormer s
  | 10 => statusCuts s
  | 11 => statusBanks s
  | _ => statusPace s

/-! ## LINE (R189) -/

/-- The line counts and the first error. -/
def lineBytes (p : Ply) : List Byte :=
  be 2 p.lineErrors ++ be 2 p.numberClash ++ be 2 p.asksDropped ++ be 2 p.collisions
    ++ be 2 p.collisionDrops ++ be 2 p.queueDrops ++
    (match p.firstError with
      | some f => byte 1 ++ byte (Code.lineError f.error) ++ byte f.byte0 ++ byte f.byte1
      | none => [0, 0, 0, 0])

/-- The counts at 0 and the first error absent. -/
def Ply.clearLine (p : Ply) : Ply :=
  { p with lineErrors := 0, numberClash := 0, asksDropped := 0, collisions := 0, collisionDrops := 0,
           queueDrops := 0, firstError := none }

/-! ## Records (R194) -/

/-- A map entry, 14 bytes. -/
def MapEntry.bytes (e : MapEntry) : List Byte :=
  byte (Code.entryKind e.kind) ++ byte e.origin ++ be 4 e.position ++ be 4 e.extent
    ++ byte (Code.severity e.severity) ++ byte e.count ++ flagByte e.isOpen ++ flagByte e.forwarded

/-- A defect item, 5 bytes: offset and extent in whole metres. Of an offset above 65,535 m the 2 bytes carry
the low 16 bits (log entry 60). -/
def DefectItem.bytes (d : DefectItem) : List Byte :=
  byte (Code.entryKind d.kind + if d.severity = .major then 16 else 0) ++ byte d.origin
    ++ be 2 (d.offset / 1000) ++ byte (min 255 (d.extent / 1000))

/-- Length of a record: of an OPEN one its length so far, from its start to the run position (log entry
11). -/
def PackageRecord.lengthAt (pos : Nat) (r : PackageRecord) : Nat := r.endPos.getD pos - r.startPos

/-- Page 0 of a package record, 20 bytes. -/
def PackageRecord.summaryBytes (pos : Nat) (r : PackageRecord) : List Byte :=
  be 2 r.number ++ byte (Code.packageType r.type) ++ byte r.bank ++ be 2 r.productCode ++ be 4 r.startPos
    ++ be 4 (r.lengthAt pos) ++ byte r.joinCount ++ byte r.defectsDropped ++ byte (Code.grade r.grade)
    ++ byte (Code.closeReason r.reason) ++ byte (Code.packageState r.state)
    ++ byte (Code.reportState r.report)

/-- Page 1: join count and four offsets. -/
def PackageRecord.joinBytes (r : PackageRecord) : List Byte :=
  byte r.joinCount ++ ((r.joins ++ List.replicate 4 0).take 4).flatMap (be 4)

/-- Four defect items from index `i`. -/
def PackageRecord.defectBytes (i : Nat) (r : PackageRecord) : List Byte :=
  ((((r.defects.drop i).take 4).flatMap DefectItem.bytes) ++ List.replicate 20 0).take 20

/-- The status byte of a used listen entry. -/
def listenStatusCode : ListenStatus → Nat
  | .unused => 0 | .peer => 1 | .ignored => 2

/-- Page 0 of PEERS, 13 bytes; an ignored entry's runtime fields show as absent (R147). -/
def ListenEntry.settingBytes (e : ListenEntry) : List Byte :=
  let live := e.status == .peer
  byte e.number ++ byte (Code.listenRole e.role) ++ be 2 e.takeUp ++ be 3 e.path
    ++ byte (Code.level e.follow) ++ beInt 1 e.weight ++ byte (listenStatusCode e.status)
    ++ flagByte (live && e.lastReport.isSome) ++ flagByte (live && e.stale)
    ++ byte (if live then e.staleCount else 0)

/-- Pages 1 and 2 of PEERS: the last report in the PACE layout. -/
def ListenEntry.reportBytes (e : ListenEntry) : List Byte :=
  match e.status, e.lastReport with
  | .peer, some r => r.payload
  | _, _ => List.replicate 24 0

/-- PEERS page by number, 0..2. -/
def ListenEntry.pageBytes (e : ListenEntry) : Nat → List Byte
  | 0 => e.settingBytes
  | 1 => e.reportBytes.take 18
  | _ => e.reportBytes.drop 18

end Sys2Proof.Machine
end

