-- ==== Sys2Proof/Machine/Requests.lean ====
section
/-!
DEFINITION. ASK requests and their answers (section 9.6): the operand tests, the refusals in R190's order,
each request's effect by its owning chapter, and the answer queued at the same event.
-/

namespace Sys2Proof.Machine

/-! ## Answers (R192) -/

/-- Reason of a refusal, by its detail code. -/
inductive Refuse where
  | state | bankEmpty | bankInUse | notFound | malformed | notForming
  deriving DecidableEq, Repr

/-- Detail codes of R192. -/
def Refuse.code : Refuse → Nat
  | .state => 1 | .bankEmpty => 2 | .bankInUse => 3 | .notFound => 4 | .malformed => 5 | .notForming => 6

/-- The result, detail and data of an answer; `restart` marks the answer of an accepted RESTART. -/
structure Answer where
  result  : Nat
  detail  : Nat
  data    : List Byte
  restart : Bool
  deriving DecidableEq, Repr

/-- DONE with a detail and data. -/
def Answer.done (detail : Nat) (data : List Byte) : Answer := { result := 0, detail, data, restart := false }

/-- DONE, or CLAMPED(n) when n fields were clamped (R117). -/
def Answer.written (n : Nat) : Answer :=
  { result := if n = 0 then 0 else 1, detail := n, data := [], restart := false }

/-- REFUSED with a reason. -/
def Answer.refused (r : Refuse) : Answer := { result := 2, detail := r.code, data := [], restart := false }

/-- What performing a request gives: the state after its effect and the answer. -/
abbrev Performed := State × Answer

/-- The request changes nothing and is refused. -/
def refuse (r : Refuse) (s : State) : Performed := (s, .refused r)

/-! ## Requests (each total on its operand bytes) -/

/-- STATUS(page): R193. -/
def doStatus (args : List Byte) (s : State) : Performed :=
  let answer (page : Nat) : Performed :=
    if page ≤ 12 then (s, .done (Code.stationState s.station.state) (statusPage s page))
    else refuse .malformed s
  match args with
  | [] => answer 0
  | [p] => answer p.toNat
  | _ => refuse .malformed s

/-- LINE(clear): R189. -/
def doLine (args : List Byte) (s : State) : Performed :=
  let answer := Answer.done 0 (lineBytes s.ply)
  match args with
  | [] => (s, answer)
  | [c] =>
    if c = 0 then (s, answer) else if c = 1 then (s.setPly s.ply.clearLine, answer) else refuse .malformed s
  | _ => refuse .malformed s

/-- Refused with STATE in START and HELD, otherwise performed. -/
def inService (s : State) (act : Performed) : Performed :=
  if s.station.state.reports then act else refuse .state s

/-- PEERS(entry, page): R147, R194. -/
def doPeers (args : List Byte) (s : State) : Performed :=
  let answer (i page : Nat) : Performed :=
    if 5 < i ∨ 2 < page then refuse .malformed s
    else inService s (
      let e := s.pace.listen.toList.getD i .reset
      if e.status = .unused then refuse .notFound s else (s, .done 0 (e.pageBytes page)))
  match args with
  | [i] => answer i.toNat 0
  | [i, p] => answer i.toNat p.toNat
  | _ => refuse .malformed s

/-- MAP(index): R85, R194. -/
def doMap (args : List Byte) (s : State) : Performed :=
  match args with
  | [i] => inService s (
      match s.map.entries[i.toNat]? with
      | some e => (s, .done s.map.entries.length e.bytes)
      | none => refuse .notFound s)
  | _ => refuse .malformed s

/-- Data and detail of a package page (R194). -/
def packageAnswer (s : State) (r : PackageRecord) : Nat → Answer
  | 0 => .done 0 (r.summaryBytes s.pos)
  | 1 => .done r.joins.length r.joinBytes
  | 2 => .done r.defects.length (r.defectBytes 0)
  | _ => .done r.defects.length (r.defectBytes 4)

/-- PACKAGE(number, page): R112, R194. -/
def doPackage (args : List Byte) (s : State) : Performed :=
  match args with
  | [hi, lo, p] =>
    if 3 < p.toNat then refuse .malformed s
    else inService s (
      if !s.forming then refuse .notForming s
      else match s.former.table.find? (fun r => r.number == unbe [hi, lo]) with
        | some r => (s, packageAnswer s r p.toNat)
        | none => refuse .notFound s)
  | _ => refuse .malformed s

/-- BANK_READ(k, page): R119, R194. -/
def doBankRead (args : List Byte) (s : State) : Performed :=
  match args with
  | [k, p] =>
    if 3 < k.toNat ∨ 2 < p.toNat then refuse .malformed s
    else inService s (
      let b := s.bank k.toNat
      match b.pageBytes? p.toNat with
      | some bytes => (s, .done (Code.bankState b.state) bytes)
      | none => (s, { Answer.refused .bankEmpty with data := byte (Code.bankState b.state) }))
  | _ => refuse .malformed s

/-- A page from its bytes, written into a bank: the bank, the number of fields clamped, and the number of
choice fields with no valid code (R117, R118). -/
def writePage (b : Bank) (page : Nat) (bytes : List Byte) : Bank × Nat × Nat :=
  match page with
  | 0 => let r := readTwistPage bytes; ({ b with twist := some r.page }.complete, r.clamped, r.badCode)
  | 1 => let r := readKnotPage bytes; ({ b with knot := some r.page }.complete, r.clamped, r.badCode)
  | _ => let r := readPackagePage bytes; ({ b with package := some r.page }.complete, r.clamped, r.badCode)

/-- BANK_WRITE(k, page, fields): R117, R118, R195. -/
def doBankWrite (args : List Byte) (s : State) : Performed :=
  match args with
  | k :: p :: bytes =>
    let b := s.bank k.toNat
    let w := writePage b p.toNat bytes
    if 3 < k.toNat ∨ 2 < p.toNat ∨ bytes.length ≠ pageBytes p.toNat ∨ w.2.2 ≠ 0 then refuse .malformed s
    else inService s (
      if b.state = .active ∨ b.state = .staged then refuse .bankInUse s
      else (s.setBank k.toNat w.1, .written w.2.1))
  | _ => refuse .malformed s

/-- RUN(k): R120, R151. -/
def doRun (args : List Byte) (s : State) : Performed :=
  match args with
  | [k] =>
    if 3 < k.toNat then refuse .malformed s
    else if s.station.state ≠ .idle then refuse .state s
    else if (s.bank k.toNat).state = .empty then refuse .bankEmpty s
    else (startRun k.toNat s, .done 0 [])
  | _ => refuse .malformed s

/-- CHANGE(k) names a LOADED bank: it is staged, or on a PLAIN station that does not form packages the
switch is made at once (R121). -/
def stageBank (k : Nat) (s : State) : State :=
  let freed := match s.stagedBank with
    | some j => s.setBank j { s.bank j with state := .loaded }
    | none => s
  if freed.cfg.kind = .plain ∧ freed.forming = false then (switchBank k freed.pos freed).1
  else freed.setBank k { freed.bank k with state := .staged }

/-- CHANGE(k): R121. -/
def doChange (args : List Byte) (s : State) : Performed :=
  match args with
  | [k] =>
    if 3 < k.toNat then refuse .malformed s
    else if !s.inRun then refuse .state s
    else match (s.bank k.toNat).state with
      | .empty => refuse .bankEmpty s
      | .active => refuse .bankInUse s
      | .staged => (s, .done 0 [])
      | .loaded => (stageBank k.toNat s, .done 0 [])
  | _ => refuse .malformed s

/-- GO: R152. -/
def doGo (args : List Byte) (s : State) : Performed :=
  match args with
  | [] => if s.station.state = .ready then (takeGo s.own s, .done 0 []) else refuse .state s
  | _ => refuse .malformed s

/-- STOP(level): R163. -/
def doStop (args : List Byte) (s : State) : Performed :=
  match args with
  | [l] =>
    match Code.levelOf l.toNat with
    | none => refuse .malformed s
    | some level =>
      if !s.inRun then refuse .state s
      else (raiseLocal (match level with | .hard => .localStop | .soft => .requestStop) s, .done 0 [])
  | _ => refuse .malformed s

/-- CLEAR(force): R166, R167. -/
def doClear (args : List Byte) (s : State) : Performed :=
  let act (force : Bool) : Performed := inService s (clearCauses force s, .done 0 [])
  match args with
  | [] => act false
  | [f] => if f = 0 then act false else if f = 1 then act true else refuse .malformed s
  | _ => refuse .malformed s

/-- END: R157. -/
def doEnd (args : List Byte) (s : State) : Performed :=
  match args with
  | [] =>
    if s.station.state = .ready ∨ s.station.state = .stopped then (endRun s, .done 0 []) else refuse .state s
  | _ => refuse .malformed s

/-- RESTART: R158. -/
def doRestart (args : List Byte) (s : State) : Performed :=
  match args with
  | [] =>
    if s.station.state = .idle ∨ s.station.state = .held then
      (s.setStation { s.station with restartPending := true, answerGone := false },
        { Answer.done 0 [] with restart := true })
    else refuse .state s
  | _ => refuse .malformed s

/-- A request by its code (R190). -/
def perform (code : Nat) (args : List Byte) (s : State) : Performed :=
  match code with
  | 1 => doStatus args s
  | 2 => doLine args s
  | 3 => doPeers args s
  | 4 => doMap args s
  | 5 => doPackage args s
  | 6 => doBankRead args s
  | 7 => doBankWrite args s
  | 8 => doRun args s
  | 9 => doChange args s
  | 10 => doGo args s
  | 11 => doStop args s
  | 12 => doClear args s
  | 13 => doEnd args s
  | 14 => doRestart args s
  | _ => refuse .malformed s

/-! ## Taking an ASK (R191) -/

/-- In HELD, and while restart pending is yes, a request other than STATUS and LINE that is well formed is
refused with STATE (R158, R203); RESTART in HELD is not. -/
def barred (code : Nat) (s : State) : Bool :=
  code != 1 && code != 2
    && (s.station.restartPending || (s.station.state == .held && code != 14))

/-- The answer a barred request gets: MALFORMED comes before STATE (R190). -/
def barredAnswer (code : Nat) (args : List Byte) (s : State) : Answer :=
  if (perform code args s).2.result = 2 ∧ (perform code args s).2.detail = Refuse.malformed.code
  then .refused .malformed else .refused .state

/-- Performs an ASK addressed to this station. -/
def performAsk (code : Nat) (args : List Byte) (s : State) : Performed :=
  if barred code s then (s, barredAnswer code args s) else perform code args s

/-- The ANSWER payload (R192). -/
def Answer.payload (tag : Byte) (code : Nat) (a : Answer) : List Byte :=
  tag :: byte code ++ byte a.result ++ byte a.detail ++ a.data

/-- Holds or frees the place kept for the ANSWER. -/
def holdPlace (held : Bool) (s : State) : State := s.setPly { s.ply with placeHeld := held }

/-- Queues the ANSWER in the place held for it; it is never refused at queuing (R185). -/
def queueAnswer (dest : Nat) (payload : List Byte) (restart : Bool) (s : State) : State :=
  s.setPly { s.ply with
    placeHeld := false
    queue := s.ply.queue ++ [{ body := .answer dest payload restart, collisions := 0, inFlight := false }] }

/-- An ASK addressed to this station: counted and lost when the queue is full, otherwise performed and
answered at the same event (R191). -/
def askHere (sender tag : Byte) (code : Nat) (args : List Byte) (s : State) : State :=
  if s.ply.queue.length < Config.queueCapacity then
    let done := performAsk code args (holdPlace true s)
    queueAnswer sender.toNat (done.2.payload tag code) done.2.restart done.1
  else s.setPly { s.ply with asksDropped := sat Config.count16 s.ply.asksDropped }

/-- An ASK addressed to all stations: GO, STOP and CLEAR are performed without an answer where their rules
allow, and set aside in HELD; any other request is counted (R191). -/
def askAll (code : Nat) (args : List Byte) (s : State) : State :=
  if code = 10 ∨ code = 11 ∨ code = 12 then
    if s.station.state = .held then s else (perform code args s).1
  else s.setPly { s.ply with asksDropped := sat Config.count16 s.ply.asksDropped }

/-- A received ASK frame: tag, request byte and operands (R190). -/
def takeAsk (f : RxFrame) (s : State) : State :=
  match f.payload with
  | tag :: code :: args =>
    if f.dest = 0 then askAll code.toNat args s else askHere f.sender tag code.toNat args s
  | _ => s

/-! ## Frames handed to their blocks (R188) -/

/-- A PACE from a peer updates its listen entry (R131, R178). -/
def takePace (f : RxFrame) (s : State) : State :=
  match readPace f.payload with
  | none => s
  | some r => s.setPace { s.pace with listen := mapTable (fun e : ListenEntry =>
      if e.status = .peer ∧ e.number = f.sender.toNat then
        { e with lastReport := some r, staleCount := s.cfg.staleTime, stale := false } else e) s.pace.listen }

/-- A HALT from a peer (R170, R171). -/
def haltFrame (f : RxFrame) (s : State) : State :=
  match readHalt f.payload, s.peerOf f.sender.toNat with
  | some h, some e => takeHalt e h s
  | _, _ => s

/-- A RESUME from any sender (R172). -/
def resumeFrame (f : RxFrame) (s : State) : State :=
  match readOrigin f.payload with
  | some x => takeResume x s
  | none => s

/-- A GO from a peer takes a READY station to RUN (R152). -/
def goFrame (f : RxFrame) (s : State) : State :=
  match readOrigin f.payload, s.peerOf f.sender.toNat with
  | some x, some _ => if s.station.state = .ready then takeGo x s else s
  | _, _ => s

/-- A HANDOFF is accepted, or counted as not accepted (R138). -/
def handoffFrame (f : RxFrame) (s : State) : State :=
  let ignored := s.setPace { s.pace with handoffsIgnored := sat Config.count16 s.pace.handoffsIgnored }
  match readHandoff f.payload, s.peerOf f.sender.toNat with
  | some h, some e =>
    if s.inRun && f.dest != 0 && e.role == .feed then acceptHandoff e h s else ignored
  | _, _ => ignored

/-- A received frame goes to its block by kind; in HELD only an ASK does (R188), and in START nothing is
received (R131, R138, R175). -/
def handOn (kind : BitVec 4) (f : RxFrame) (s : State) : State :=
  if kind = 7 then takeAsk f s
  else if !s.station.state.reports then s
  else if kind = 1 then takePace f s
  else if kind = 2 then haltFrame f s
  else if kind = 3 then resumeFrame f s
  else if kind = 4 then goFrame f s
  else if kind = 5 then handoffFrame f s
  else s

/-- A frame with a good check ends on the line (R187, R188); with the interface off, or before the line has
been seen idle, nothing is received (R175). -/
def receive (kind : BitVec 4) (f : RxFrame) (s : State) : State :=
  if !s.ply.isOn then s
  else if !s.ply.seenIdle then firstGap s
  else
    let fate := rxFate s.own kind f
    let heard := hearFrame fate s
    match fate with
    | .error e => lineError e (rxByte0 kind f) f.sender.toNat heard
    | .otherStation => heard
    | .clash => heard.setPly { heard.ply with numberClash := sat Config.count16 heard.ply.numberClash }
    | .received => handOn kind f heard

/-- A run of bytes ends on the line: the length and check tests, then the rest (R187). -/
def receiveBytes (bs : List Byte) (s : State) : State :=
  if !s.ply.isOn then s
  else if !s.ply.seenIdle then firstGap s
  else if lengthFails bs then
    lineError .length (byteAt 0 bs) (byteAt 1 bs) (hearFrame (.error .length) s)
  else if checkFails bs then
    lineError .check (byteAt 0 bs) (byteAt 1 bs) (hearFrame (.error .check) s)
  else receive (frameOf bs).1 (frameOf bs).2 s

/-- A run of bytes as it stood on the line ends: each byte is taken with its data bits, whatever its stop bit
reads, and the checks decide the rest (R175, R187). -/
def receiveLine (chars : List LineByte) (s : State) : State := receiveBytes (chars.map LineByte.data) s

/-- An ASK frame's payload: tag, request byte, operands. -/
def askFrame (h : AskHead) (code : Byte) (args : List Byte) : RxFrame :=
  { top := h.top, sender := h.sender, dest := h.dest, payload := h.tag :: code :: args }

/-- A received ASK of a request code. -/
def receiveAsk (code : Byte) (a : Ask) (s : State) : State := receive 7 (askFrame a.head code a.args) s

end Sys2Proof.Machine
end

