-- ==== Sys2Proof/Machine/Start.lean ====
section
/-!
DEFINITION. Resets and START (chapter 10): the configuration block's checks, the values taken from it, the
listen table (R127), the read attempts with what SCL/SDA carried (R199), the way into IDLE (R202) and HELD
(R203), and both kinds of reset (R197).
-/

namespace Sys2Proof.Machine

/-! ## Checks on the block image (R200) -/

/-- Bytes 0 and 1 are C6 and 1A hexadecimal, and the version is 1. -/
def tagGood (bs : List Byte) : Bool := field 0 2 bs == 0xC61A && field 2 1 bs == 1

/-- The bytes sum to 0 modulo 256. -/
def sumGood (bs : List Byte) : Bool := (bs.foldl (fun acc b => acc + b.toNat) 0) % 256 == 0

/-! ## Taking the values (R201) -/

/-- A value taken from the block, and how many replacements it took. -/
structure Taken (α : Type) where
  value    : α
  replaced : Nat
  deriving DecidableEq, Repr

/-- A numeric field clamped to its range. -/
def takeNumber (off len lo hi : Nat) (bs : List Byte) : Nat × Nat := clampCount lo hi (field off len bs)

/-- Wheel step B: 0, or 50..20,000, with 1..49 replaced by 50. -/
def takeStepB (v : Nat) : Nat × Nat := if v = 0 then (0, 0) else clampCount 50 20000 v

/-- Machine kind, PLAIN when the code is not 1..3. -/
def takeKind (v : Nat) : MachineKind × Nat :=
  match v with
  | 1 => (.laying, 0) | 2 => (.netting, 0) | 3 => (.plain, 0) | _ => (.plain, 1)

/-- The values of offsets 3 to 34. -/
def takeSettings (bs : List Byte) : Taken Settings :=
  let kind := takeKind (field 3 1 bs)
  let stepA := takeNumber 5 2 50 20000 bs
  let stepB := takeStepB (field 7 2 bs)
  let ppr := takeNumber 9 1 1 64 bs
  let smax := takeNumber 10 2 100 9999 bs
  let ownLimit := takeNumber 12 2 10 6000 bs
  let rampUp := takeNumber 14 2 1 500 bs
  let rampDown := takeNumber 16 2 1 500 bs
  let stopRamp := takeNumber 18 2 1 1000 bs
  let pacePeriod := takeNumber 20 1 1 20 bs
  let staleTime := takeNumber 21 1 3 100 bs
  let dwellTime := takeNumber 22 2 1 600 bs
  let slipSpan := takeNumber 24 2 1000 20000 bs
  let slipTol := takeNumber 26 1 5 100 bs
  let slipPersist := takeNumber 27 1 1 8 bs
  let cutterOffset := takeNumber 28 2 0 20000 bs
  let retention := takeNumber 30 3 0 100000 bs
  let burst := takeNumber 33 1 1 4 bs
  let startBank := takeNumber 34 1 0 3 bs
  { value :=
      { kind := kind.1, forming := field 4 1 bs == 1, stepA := stepA.1, stepB := stepB.1, ppr := ppr.1,
        smax := smax.1, ownLimit := ownLimit.1, rampUp := rampUp.1, rampDown := rampDown.1,
        stopRamp := stopRamp.1, pacePeriod := pacePeriod.1, staleTime := staleTime.1,
        dwellTime := dwellTime.1, slipSpan := slipSpan.1, slipTol := slipTol.1,
        slipPersist := slipPersist.1, cutterOffset := cutterOffset.1, retention := retention.1,
        burst := burst.1, startBank := startBank.1 }
    replaced := kind.2 + flag (decide (1 < field 4 1 bs)) + stepA.2 + stepB.2 + ppr.2 + smax.2
      + ownLimit.2 + rampUp.2 + rampDown.2 + stopRamp.2 + pacePeriod.2 + staleTime.2 + dwellTime.2
      + slipSpan.2 + slipTol.2 + slipPersist.2 + cutterOffset.2 + retention.2 + burst.2 + startBank.2 }

/-- A listen entry's 8 bytes: none for an unused entry, and the replacements made. Every field of every
entry is taken, those of an unused entry too (log entry 12). Bits 7..4 of the role byte are not read (log entry
54). -/
def takeEntry (bs : List Byte) : Taken (Option ListenEntry) :=
  let roles := field 1 1 bs
  let role : Option ListenRole :=
    match roles % 4 with
    | 1 => some .feed | 2 => some .take | _ => none
  let follow := Code.levelOf (roles / 4 % 4)
  let takeUp := takeNumber 2 2 1000 1400 bs
  let path := takeNumber 4 3 0 200000 bs
  let weight := unbeInt (slice 7 1 bs)
  { value :=
      match role with
      | none => none
      | some r =>
        if field 0 1 bs = 0 then none
        else some { ListenEntry.reset with
          number := field 0 1 bs, role := r, takeUp := takeUp.1, path := path.1
          follow := follow.getD .hard, weight := clampInt (-100) 100 weight }
    replaced := flag role.isNone + flag follow.isNone + takeUp.2 + path.2
      + flag (decide (clampInt (-100) 100 weight ≠ weight)) }

/-- What the listen table has taken so far, in block order. -/
structure ListenTaking where
  entries : List ListenEntry
  faults  : Nat
  deriving DecidableEq, Repr

/-- Peers of a role among the entries taken so far. -/
def takenAs (r : ListenRole) (l : List ListenEntry) : Nat :=
  (l.filter (fun e => e.status == .peer && e.role == r)).length

/-- Most peers of a role (R127). -/
def roleLimit : ListenRole → Nat
  | .feed => 4 | .take => 2

/-- A used entry is ignored (R127). -/
def ListenEntry.barredBy (own : Nat) (before : List ListenEntry) (e : ListenEntry) : Bool :=
  e.number == own || decide (62 < e.number)
    || before.any (fun x => x.status == .peer && x.number == e.number)
    || decide (roleLimit e.role ≤ takenAs e.role before)

/-- Judges one entry of the listen table (R127). -/
def ListenTaking.judge (own : Nat) (t : ListenTaking) (e : Option ListenEntry) : ListenTaking :=
  match e with
  | none => { t with entries := t.entries ++ [.reset] }
  | some e =>
    if e.barredBy own t.entries then
      { entries := t.entries ++ [{ e with status := .ignored }], faults := t.faults + 1 }
    else { t with entries := t.entries ++ [{ e with status := .peer }] }

/-- The six entries of the block, offsets 35 to 82. -/
def blockEntries (bs : List Byte) : List (Taken (Option ListenEntry)) :=
  (List.range 6).map (fun i => takeEntry (slice (35 + 8 * i) 8 bs))

/-- The listen table of a block for a station number (R127). -/
def takeListen (own : Nat) (bs : List Byte) : ListenTaking :=
  (blockEntries bs).foldl (fun t e => t.judge own e.value) { entries := [], faults := 0 }

/-- The bank a recipe image spells, LOADED with its three pages (R116). -/
def imageBank (bs : List Byte) : Bank :=
  { state := .loaded, twist := some (readTwistPage (slice 83 10 bs)).page
    knot := some (readKnotPage (slice 93 11 bs)).page
    package := some (readPackagePage (slice 104 20 bs)).page }

/-- Replacements made in the recipe image, choice fields among them (R201). -/
def imageReplaced (bs : List Byte) : Nat :=
  let t := readTwistPage (slice 83 10 bs)
  let k := readKnotPage (slice 93 11 bs)
  let p := readPackagePage (slice 104 20 bs)
  t.clamped + k.clamped + k.badCode + p.clamped + p.badCode

/-- All replacements made in a block. -/
def blockReplaced (bs : List Byte) : Nat :=
  (takeSettings bs).replaced + ((blockEntries bs).map (fun e => e.replaced)).foldl (· + ·) 0
    + imageReplaced bs

/-- Takes every value of a block that passed checks 1 to 3 (R201). -/
def takeValues (bs : List Byte) (s : State) : State :=
  let l := takeListen s.own bs
  ((s.setStart { s.start with settings := some (takeSettings bs).value
                              clamped := min Config.count8 (blockReplaced bs) }).setPace
    { s.pace with listen := Vector.ofFn (fun i : Fin 6 => l.entries.getD i.val .reset)
                  listenFaults := l.faults }).setBank 0 (imageBank bs)

/-! ## The end of START -/

/-- START ends in HELD with a reason; the interface comes on when the straps gave a station number
(R175, R203). -/
def toHeld (r : StartReason) (s : State) : State :=
  ((s.setStart { s.start with phase := .over, reason := r }).setStation (s.station.enter .held)).setPly
    { s.ply with isOn := isStation s.own, seenIdle := false, idle := 0 }

/-- START ends in IDLE: interface on, own_offer and the set-point link set, pace slot refreshed (R202). -/
def toIdle (s : State) : State :=
  changeState .idle
    (((s.setStart { s.start with phase := .over, reason := .none }).setPly
        { s.ply with isOn := true, seenIdle := false, idle := 0 }).setTwist
      { (s.twist.transfer 0 0) with ownOffer := s.cfg.ownLimit })

/-- The checks on a block image that was read, and what START makes of it (R200). -/
def judgeBlock (bs : List Byte) (s : State) : State :=
  let read := s.setStart { s.start with image := some bs }
  if !tagGood bs then toHeld .badTag read
  else if !sumGood bs then toHeld .badSum read
  else
    let taken := takeValues bs read
    if isStation s.own then toIdle taken else toHeld .straps taken

/-! ## Read attempts (R199) -/

/-- A byte the station sends, most significant bit first, and the memory's acknowledge. -/
def sentByte (b : Byte) (acknowledged : Bool) : List BusItem :=
  (bitsOf b).map .stationBit ++ [.memoryBit (!acknowledged)]

/-- A byte the memory sends, and the station's acknowledge. -/
def readByte (acknowledged : Bool) (b : Byte) : List BusItem :=
  (bitsOf b).map .memoryBit ++ [.stationBit (!acknowledged)]

/-- Step 1 and the start of step 2: the clocks that release SDA, the start condition and the bus address for
writing. -/
def busOpening (clocks : Nat) (acknowledged : Bool) : List BusItem :=
  List.replicate clocks .releaseClock ++ .startCond :: sentByte 0xA8 acknowledged

/-- What SCL and SDA carried in an attempt (R199; log entry 17). -/
def busItems : ReadResult → List BusItem
  | .sdaStuck => List.replicate 9 .releaseClock
  | .noAckAddress n => busOpening n false ++ [.stopCond]
  | .noAckOffset n => busOpening n true ++ sentByte 0 false ++ [.stopCond]
  | .noAckRead n => busOpening n true ++ sentByte 0 true ++ .startCond :: sentByte 0xA9 false ++ [.stopCond]
  | .image n bytes => busOpening n true ++ sentByte 0 true ++ .startCond :: sentByte 0xA9 true
      ++ (bytes.toList.take 127).flatMap (readByte true)
      ++ (bytes.toList.drop 127).flatMap (readByte false) ++ [.stopCond]

/-- The levels at which an item leaves SCL and SDA, as the station drives them: released is high, and SDA is
released in a clock in which the memory sets it (R199). -/
def BusItem.pins : BusItem → Bool × Bool
  | .startCond => (true, false)
  | .stopCond => (true, true)
  | .releaseClock => (true, true)
  | .stationBit sda => (false, sda)
  | .memoryBit _ => (false, true)

/-- An attempt has been made: it is counted, and what the two pins carried and how it left them is shown. -/
def StartBlock.attempted (r : ReadResult) (b : StartBlock) : StartBlock :=
  let pins := ((busItems r).getLast?.map BusItem.pins).getD (b.scl, b.sda)
  { b with attempts := b.attempts + 1, bus := busItems r, scl := pins.1, sda := pins.2 }

/-- An attempt ends: a third failure ends START in HELD, an earlier one begins the wait, a success goes on
to the checks. -/
def readAttempt (r : ReadResult) (s : State) : State :=
  if s.start.phase = .attempting then
    let counted := s.setStart (s.start.attempted r)
    match r with
    | .image _ bytes => judgeBlock bytes.toList counted
    | .sdaStuck | .noAckAddress _ | .noAckOffset _ | .noAckRead _ =>
      if counted.start.attempts < Config.readAttempts then
        counted.setStart { counted.start with phase := .waiting }
      else toHeld .noAck counted
  else s

/-- The 5 ms wait after a failed attempt ends and the next attempt begins. -/
def retryRead (s : State) : State :=
  if s.start.phase = .waiting then s.setStart { s.start with phase := .attempting } else s

/-! ## Resets (R197) -/

/-- The first step of START: the straps are sampled (R198) and the reading of the block begins. -/
def beginStart (straps : Straps) (s : State) : State :=
  s.setStart { StartBlock.reset with phase := .attempting, number := straps.toNat }

/-- RSTn low or power-on: every block as its chapter gives for a cold reset. The BRK pin keeps the level
outside the part puts on it (log entry 3), and waiting commands go on waiting. -/
def coldReset (s : State) : State :=
  (State.reset.setStation { Station.reset with brkActive := s.station.brkActive }).setPending s.pending

/-- RSTn returns high: START begins. -/
def releaseReset (straps : Straps) (s : State) : State :=
  if s.start.phase = .inReset then beginStart straps s else s

/-- Each PKG frame in the queue is reported to the package former as a drop. -/
def dropReports (queue : List QFrame) (s : State) : State :=
  queue.foldl (fun acc f => reportDrop f.body acc) s

/-- The line interface after a warm restart: the six counts and the first error are kept (R196). -/
def Ply.afterRestart (p : Ply) : Ply :=
  { Ply.reset with lineErrors := p.lineErrors, numberClash := p.numberClash, asksDropped := p.asksDropped
                   collisions := p.collisions, collisionDrops := p.collisionDrops
                   queueDrops := p.queueDrops, firstError := p.firstError }

/-- The package former after a warm restart: table, next number and `reports_lost` are kept (R114), also when
the new block turns forming off (log entry 52). -/
def Former.afterRestart (f : Former) : Former :=
  { Former.reset with table := f.table, nextNumber := f.nextNumber, reportsLost := f.reportsLost }

/-- The warm restart: the queue's PKG frames are reported as drops, banks 1 to 3, the package table and the
line counts are kept, every other block takes its values, and START begins. -/
def warmRestart (straps : Straps) (s : State) : State :=
  let told := dropReports s.ply.queue s
  let reset := (((coldReset told).setFormer told.former.afterRestart).setPly
    told.ply.afterRestart).setBanks (told.banks.set 0 .reset)
  beginStart straps reset

/-- A warm restart is made once the ANSWER to an accepted RESTART has left or been dropped (R158). -/
def takeWarmRestart (straps : Straps) (s : State) : State :=
  if s.station.restartPending && s.station.answerGone then warmRestart straps s else s

end Sys2Proof.Machine
end

