-- ==== Sys2Proof/Machine/AskCommands.lean ====
section
/-!
DEFINITION. Meanings of the ASK requests that arrive on LRX (section 9.6).
-/

namespace Sys2Proof.Machine

/-- STATUS: an ASK with request byte 1 arrives (R193, R190, R191). -/
def execAskStatus (ask : Ask) (s : State) : Host.Outcome State Fault Refusal := .next (receiveAsk 1 ask s)

/-- LINE: an ASK with request byte 2 arrives (R189, R190, R191). -/
def execAskLine (ask : Ask) (s : State) : Host.Outcome State Fault Refusal := .next (receiveAsk 2 ask s)

/-- PEERS: an ASK with request byte 3 arrives (R147, R194, R190, R191). -/
def execAskPeers (ask : Ask) (s : State) : Host.Outcome State Fault Refusal := .next (receiveAsk 3 ask s)

/-- MAP: an ASK with request byte 4 arrives (R85, R194, R190, R191). -/
def execAskMap (ask : Ask) (s : State) : Host.Outcome State Fault Refusal := .next (receiveAsk 4 ask s)

/-- PACKAGE: an ASK with request byte 5 arrives (R112, R194, R190, R191). -/
def execAskPackage (ask : Ask) (s : State) : Host.Outcome State Fault Refusal := .next (receiveAsk 5 ask s)

/-- BANK_READ: an ASK with request byte 6 arrives (R119, R194, R190, R191). -/
def execAskBankRead (ask : Ask) (s : State) : Host.Outcome State Fault Refusal := .next (receiveAsk 6 ask s)

/-- BANK_WRITE: an ASK with request byte 7 arrives (R117, R118, R195, R190, R191). -/
def execAskBankWrite (ask : Ask) (s : State) : Host.Outcome State Fault Refusal := .next (receiveAsk 7 ask s)

/-- RUN: an ASK with request byte 8 arrives (R120, R151, R190, R191). -/
def execAskRun (ask : Ask) (s : State) : Host.Outcome State Fault Refusal := .next (receiveAsk 8 ask s)

/-- CHANGE: an ASK with request byte 9 arrives (R121, R190, R191). -/
def execAskChange (ask : Ask) (s : State) : Host.Outcome State Fault Refusal := .next (receiveAsk 9 ask s)

/-- GO: an ASK with request byte 10 arrives (R152, R190, R191). -/
def execAskGo (ask : Ask) (s : State) : Host.Outcome State Fault Refusal := .next (receiveAsk 10 ask s)

/-- STOP: an ASK with request byte 11 arrives (R163, R190, R191). -/
def execAskStop (ask : Ask) (s : State) : Host.Outcome State Fault Refusal := .next (receiveAsk 11 ask s)

/-- CLEAR: an ASK with request byte 12 arrives (R166, R190, R191). -/
def execAskClear (ask : Ask) (s : State) : Host.Outcome State Fault Refusal := .next (receiveAsk 12 ask s)

/-- CLEAR_FORCE: an ASK CLEAR whose operand is 1 arrives (R167, R190). -/
def execAskClearForce (head : AskHead) (s : State) : Host.Outcome State Fault Refusal :=
  .next (receive 7 (askFrame head 12 [1]) s)

/-- END: an ASK with request byte 13 arrives (R157, R190, R191). -/
def execAskEnd (ask : Ask) (s : State) : Host.Outcome State Fault Refusal := .next (receiveAsk 13 ask s)

/-- RESTART: an ASK with request byte 14 arrives (R158, R190, R191). -/
def execAskRestart (ask : Ask) (s : State) : Host.Outcome State Fault Refusal := .next (receiveAsk 14 ask s)

/-- ASK_UNKNOWN_REQUEST: an ASK whose request byte is no request of the table arrives (R190). -/
def execAskUnknown (request : Byte) (ask : Ask) (s : State) : Host.Outcome State Fault Refusal :=
  .next (receiveAsk request ask s)

end Sys2Proof.Machine
end

