-- ==== Sys2Proof/Machine/FrameCommands.lean ====
section
/-!
DEFINITION. Meanings of the frames that arrive on LRX (R187, R188).
-/

namespace Sys2Proof.Machine

/-- PACE_FRAME: a PACE arrives (R131, R178). -/
def execPaceFrame (frame : RxFrame) (s : State) : Host.Outcome State Fault Refusal :=
  .next (receive 1 frame s)

/-- HALT_FRAME: a HALT arrives (R170, R171). -/
def execHaltFrame (frame : RxFrame) (s : State) : Host.Outcome State Fault Refusal :=
  .next (receive 2 frame s)

/-- RESUME_FRAME: a RESUME arrives (R172). -/
def execResumeFrame (frame : RxFrame) (s : State) : Host.Outcome State Fault Refusal :=
  .next (receive 3 frame s)

/-- GO_FRAME: a GO arrives (R152). -/
def execGoFrame (frame : RxFrame) (s : State) : Host.Outcome State Fault Refusal := .next (receive 4 frame s)

/-- HANDOFF_FRAME: a HANDOFF arrives (R138). -/
def execHandoffFrame (frame : RxFrame) (s : State) : Host.Outcome State Fault Refusal :=
  .next (receive 5 frame s)

/-- PKG_FRAME: a PKG arrives; it is taken without action (R180, R188). -/
def execPkgFrame (frame : RxFrame) (s : State) : Host.Outcome State Fault Refusal := .next (receive 6 frame s)

/-- ANSWER_FRAME: an ANSWER arrives; it is taken without action (R188). -/
def execAnswerFrame (frame : RxFrame) (s : State) : Host.Outcome State Fault Refusal :=
  .next (receive 8 frame s)

end Sys2Proof.Machine
end

