-- ==== Sys2Proof/Machine/LineCommands.lean ====
section
/-!
DEFINITION. Meanings of the events of sending on the ply line (R181 to R186) and of a received frame that
fails a check (R187).
-/

namespace Sys2Proof.Machine

/-- ACCESS_START: the idle count reaches the access delay of the first eligible frame (R181). -/
def execAccessStart (s : State) : Host.Outcome State Fault Refusal := .next (startAccess s)

/-- FRAME_SENT: the last byte of the frame in flight leaves without collision (R182, R183, R186). -/
def execFrameSent (s : State) : Host.Outcome State Fault Refusal := .next (frameSent s)

/-- COLLISION: the byte read back differs from the byte sent (R183, R186). -/
def execCollision (s : State) : Host.Outcome State Fault Refusal := .next (collide s)

/-- NORMAL_HOLD_TIMEOUT: the idle count reaches 128 (R182). -/
def execNormalHoldTimeout (s : State) : Host.Outcome State Fault Refusal := .next (holdTimeout s)

/-- RECEIVE_ERROR: a run of bytes ends on the line (R175) and is tested by R187. -/
def execReceiveError (chars : List LineByte) (s : State) : Host.Outcome State Fault Refusal :=
  .next (receiveLine chars s)

/-- BURST_NEXT_FRAME: the 2-slot gap inside a burst ends and the next eligible frame starts (R182). -/
def execBurstNextFrame (s : State) : Host.Outcome State Fault Refusal := .next (nextInBurst s)

end Sys2Proof.Machine
end

