-- ==== Sys2Proof/Machine/MeasureCommands.lean ====
section
/-!
DEFINITION. Meanings of the measuring inputs: wheel, spindle and loom (chapters 1 to 3).
-/

namespace Sys2Proof.Machine

/-- ACTIVE_SOURCE_PULSE: one falling edge of the active source (R1, R3). -/
def execActiveSourcePulse (s : State) : Host.Outcome State Fault Refusal := .next (activePulse s)

/-- NON_ACTIVE_SOURCE_PULSE: one falling edge of the other source, for the slip check alone (R4). -/
def execNonActiveSourcePulse (s : State) : Host.Outcome State Fault Refusal := .next (nonActivePulse s)

/-- SPINDLE_PULSE: one falling edge on SPN (R23). -/
def execSpindlePulse (s : State) : Host.Outcome State Fault Refusal := .next (spindlePulse s)

/-- ROW_STROKE: a falling edge on RWS closes the open row and opens the next (R50). -/
def execRowStroke (s : State) : Host.Outcome State Fault Refusal := .next (rowStroke s)

/-- SECTION_EDGE: a falling edge on one of KS0 to KS7 (R49). -/
def execSectionEdge (input : Fin 8) (s : State) : Host.Outcome State Fault Refusal :=
  .next (sectionEdge input s)

end Sys2Proof.Machine
end

