-- ==== Sys2Proof/Machine/OperatorCommands.lean ====
section
/-!
DEFINITION. Meanings of the operator inputs (R71, R162, R151, R152, R166).
-/

namespace Sys2Proof.Machine

/-- JNI_EDGE: the splice button offers a JOIN or merges into the last local one (R71, R72). -/
def execJniEdge (s : State) : Host.Outcome State Fault Refusal := .next (jniEdge s)

/-- BRK_ACTIVE: the change of BRK to active raises BREAK while a run exists (R162); with BRK already active
there is no change. -/
def execBrkActive (s : State) : Host.Outcome State Fault Refusal :=
  .next (if s.station.brkActive then s
    else raiseLocal .brk (s.setStation { s.station with brkActive := true }))

/-- BRK_INACTIVE: raises and removes nothing; CLEAR may remove BREAK from now on (R162). -/
def execBrkInactive (s : State) : Host.Outcome State Fault Refusal :=
  .next (s.setStation { s.station with brkActive := false })

/-- STP_EDGE: raises LOCAL_STOP while a run exists (R162). -/
def execStpEdge (s : State) : Host.Outcome State Fault Refusal := .next (raiseLocal .localStop s)

/-- STA_EDGE: in IDLE begins a run with the start bank when it is LOADED and no restart is pending (R120,
R151), in READY gives GO with this station's number (R152), and is ignored elsewhere. -/
def execStaEdge (s : State) : Host.Outcome State Fault Refusal :=
  .next (match s.station.state with
    | .idle =>
      if !s.station.restartPending && (s.bank s.cfg.startBank).state == .loaded
      then startRun s.cfg.startBank s else s
    | .ready => takeGo s.own s
    | .start | .held | .run | .easing | .stopped => s)

/-- CLR_EDGE: a CLEAR without force while a run exists (R162, R166). -/
def execClrEdge (s : State) : Host.Outcome State Fault Refusal :=
  .next (if s.inRun then clearCauses false s else s)

end Sys2Proof.Machine
end

