-- ==== Sys2Proof/Machine/ResetCommands.lean ====
section
/-!
DEFINITION. Meanings of the reset and START commands (chapter 10, R158).
-/

namespace Sys2Proof.Machine

/-- COLD_RESET: power-on or RSTn low, from any state (R158, R197). -/
def execColdReset (s : State) : Host.Outcome State Fault Refusal := .next (coldReset s)

/-- RESET_RELEASE: RSTn returns high and START begins with the strap sample (R197, R198). -/
def execResetRelease (straps : Straps) (s : State) : Host.Outcome State Fault Refusal :=
  .next (releaseReset straps s)

/-- BLOCK_READ_ATTEMPT: a read attempt of the configuration block ends (R199, R200). -/
def execBlockReadAttempt (result : ReadResult) (s : State) : Host.Outcome State Fault Refusal :=
  .next (readAttempt result s)

/-- READ_RETRY: the 5 ms wait ends and the next attempt begins (R199). -/
def execReadRetry (s : State) : Host.Outcome State Fault Refusal := .next (retryRead s)

/-- WARM_RESTART: made once the ANSWER to an accepted RESTART has left or been dropped (R158). -/
def execWarmRestart (straps : Straps) (s : State) : Host.Outcome State Fault Refusal :=
  .next (takeWarmRestart straps s)

end Sys2Proof.Machine
end

