-- ==== Sys2Proof/Machine/TimeCommands.lean ====
section
/-!
DEFINITION. Meanings of the events time brings: the regulation tick, the countdowns that reach 0, and the ends
of the mark shift and the CUT pulse.
-/

namespace Sys2Proof.Machine

/-- REGULATION_TICK: the 100 ms tick with all its work (R136). -/
def execRegulationTick (s : State) : Host.Outcome State Fault Refusal := .next (tick s)

/-- DWELL_START: the dwell countdown has reached 0 in RUN (R10). REGULATION_TICK does the same when its own
countdown step reaches 0 (log entry 13). -/
def execDwellStart (s : State) : Host.Outcome State Fault Refusal := .next (beginDwell s)

/-- PACE_PERIOD_EXPIRY: the pace period countdown has reached 0 and the slot is refreshed (R130; log entry
13). -/
def execPacePeriodExpiry (s : State) : Host.Outcome State Fault Refusal := .next (refreshPace s)

/-- PEER_STALE: a peer's stale countdown has reached 0 (R132; log entry 13). -/
def execPeerStale (entry : Fin 6) (s : State) : Host.Outcome State Fault Refusal := .next (staleAt entry s)

/-- MARK_SHIFT_COMPLETE: the 200 ms shift ends and the printer link is free (R14). -/
def execMarkShiftComplete (s : State) : Host.Outcome State Fault Refusal :=
  .next (s.setMarks { s.marks with printer := none })

/-- CUT_PULSE_END: CUT falls 50 ms after the latest fire (R96). -/
def execCutPulseEnd (s : State) : Host.Outcome State Fault Refusal :=
  .next (s.setFormer { s.former with cutHigh := false })

end Sys2Proof.Machine
end

