-- ==== Sys2Proof/Machine/Dispatch.lean ====
section
/-!
DEFINITION. One arm per command, each one direct call of its meaning.
-/

namespace Sys2Proof.Machine

def exec (i : Instr) (s : State) : Host.Outcome State Fault Refusal :=
  match i with
  | .coldReset => Sys2Proof.Machine.execColdReset s
  | .resetRelease straps => Sys2Proof.Machine.execResetRelease straps s
  | .blockReadAttempt result => Sys2Proof.Machine.execBlockReadAttempt result s
  | .readRetry => Sys2Proof.Machine.execReadRetry s
  | .warmRestart straps => Sys2Proof.Machine.execWarmRestart straps s
  | .activeSourcePulse => Sys2Proof.Machine.execActiveSourcePulse s
  | .nonActiveSourcePulse => Sys2Proof.Machine.execNonActiveSourcePulse s
  | .spindlePulse => Sys2Proof.Machine.execSpindlePulse s
  | .rowStroke => Sys2Proof.Machine.execRowStroke s
  | .sectionEdge input => Sys2Proof.Machine.execSectionEdge input s
  | .jniEdge => Sys2Proof.Machine.execJniEdge s
  | .brkActive => Sys2Proof.Machine.execBrkActive s
  | .brkInactive => Sys2Proof.Machine.execBrkInactive s
  | .stpEdge => Sys2Proof.Machine.execStpEdge s
  | .staEdge => Sys2Proof.Machine.execStaEdge s
  | .clrEdge => Sys2Proof.Machine.execClrEdge s
  | .regulationTick => Sys2Proof.Machine.execRegulationTick s
  | .dwellStart => Sys2Proof.Machine.execDwellStart s
  | .pacePeriodExpiry => Sys2Proof.Machine.execPacePeriodExpiry s
  | .peerStale entry => Sys2Proof.Machine.execPeerStale entry s
  | .markShiftComplete => Sys2Proof.Machine.execMarkShiftComplete s
  | .cutPulseEnd => Sys2Proof.Machine.execCutPulseEnd s
  | .accessStart => Sys2Proof.Machine.execAccessStart s
  | .frameSent => Sys2Proof.Machine.execFrameSent s
  | .collision => Sys2Proof.Machine.execCollision s
  | .normalHoldTimeout => Sys2Proof.Machine.execNormalHoldTimeout s
  | .paceFrame frame => Sys2Proof.Machine.execPaceFrame frame s
  | .haltFrame frame => Sys2Proof.Machine.execHaltFrame frame s
  | .resumeFrame frame => Sys2Proof.Machine.execResumeFrame frame s
  | .goFrame frame => Sys2Proof.Machine.execGoFrame frame s
  | .handoffFrame frame => Sys2Proof.Machine.execHandoffFrame frame s
  | .pkgFrame frame => Sys2Proof.Machine.execPkgFrame frame s
  | .answerFrame frame => Sys2Proof.Machine.execAnswerFrame frame s
  | .askStatus ask => Sys2Proof.Machine.execAskStatus ask s
  | .askLine ask => Sys2Proof.Machine.execAskLine ask s
  | .askPeers ask => Sys2Proof.Machine.execAskPeers ask s
  | .askMap ask => Sys2Proof.Machine.execAskMap ask s
  | .askPackage ask => Sys2Proof.Machine.execAskPackage ask s
  | .askBankRead ask => Sys2Proof.Machine.execAskBankRead ask s
  | .askBankWrite ask => Sys2Proof.Machine.execAskBankWrite ask s
  | .askRun ask => Sys2Proof.Machine.execAskRun ask s
  | .askChange ask => Sys2Proof.Machine.execAskChange ask s
  | .askGo ask => Sys2Proof.Machine.execAskGo ask s
  | .askStop ask => Sys2Proof.Machine.execAskStop ask s
  | .askClear ask => Sys2Proof.Machine.execAskClear ask s
  | .askClearForce head => Sys2Proof.Machine.execAskClearForce head s
  | .askEnd ask => Sys2Proof.Machine.execAskEnd ask s
  | .askRestart ask => Sys2Proof.Machine.execAskRestart ask s
  | .receiveError chars => Sys2Proof.Machine.execReceiveError chars s
  | .askUnknown request ask => Sys2Proof.Machine.execAskUnknown request ask s
  | .burstNextFrame => Sys2Proof.Machine.execBurstNextFrame s

end Sys2Proof.Machine
end

