-- ==== Sys2Proof/Machine/Step.lean ====
section
/-!
DEFINITION. One step: the command at the front of the queue is taken and performed with the queue's rest.
With no command waiting, one slot of the line passes in which no start bit begins (log entry 10).
-/

namespace Sys2Proof.Machine

/-- Take the first waiting command and perform it. -/
def step (s : State) : Host.Outcome State Fault Refusal :=
  match s.pending with
  | [] => .next (idleSlot s)
  | c :: rest => exec c (s.setPending rest)

/-- `s` with the command a word spells put at the front of its queue; unchanged where it spells none. -/
def State.withFetchWord (s : State) (nbits w : Nat) : State :=
  match decodeTableWord nbits w with
  | some c => s.setPending (c :: s.pending)
  | none => s

end Sys2Proof.Machine
end

