-- ==== Sys2Proof/Safety.lean ====
section
/-!
DEFINITION. The laws of the device the manual names, as properties of one state, each with the standing
facts about START that make every command keep it. A run is safe when every state of it is lawful.
-/

namespace Sys2Proof.Safety

open Sys2Proof.Machine

/-- Until START is over the station state is START and the cause set is empty (R174, R197). -/
abbrev startQuiet (s : State) : Prop :=
  s.start.phase ≠ .over → s.station.state = .start ∧ s.station.locals = [] ∧ s.station.peers = []

/-- DEN is on exactly in RUN and EASING, and never while a HARD cause is held (R159). -/
abbrev driveLaw (s : State) : Prop :=
  s.station.den = s.station.state.driven ∧ (s.station.hardHeld = true → s.station.den = false)

/-- The cause set is empty in START, HELD, IDLE, READY and RUN and not empty in EASING and STOPPED (R153);
ALM is on, and a first cause is held, exactly while it is not empty (R160, R165). -/
abbrev causeLaw (s : State) : Prop :=
  (s.station.setEmpty = false ↔ s.station.state = .easing ∨ s.station.state = .stopped)
    ∧ s.station.alm = !s.station.setEmpty ∧ s.station.firstCause.isSome = !s.station.setEmpty

/-- Station control is lawful. -/
abbrev StationLawful (s : State) : Prop := startQuiet s ∧ driveLaw s ∧ causeLaw s

/-- At most 8 peer halt records, at most one for an origin, none for the station itself (R170); each local
cause at most once (section 8.2). -/
abbrev HaltsLawful (s : State) : Prop :=
  startQuiet s ∧ s.station.peers.length ≤ Config.haltCapacity
    ∧ (s.station.peers.map (fun p => p.origin)).Nodup ∧ (∀ p ∈ s.station.peers, p.origin ≠ s.own)
    ∧ s.station.locals.Nodup

/-- The run map holds at most 64 entries, in non-decreasing order of position (R68). -/
abbrev MapLawful (s : State) : Prop :=
  s.map.entries.length ≤ Config.mapCapacity
    ∧ (s.map.entries.map (fun e => e.position)).Pairwise (· ≤ ·)

/-- Until START is over nothing is commanded and no offer stands (R46, R150). -/
abbrev startStill (s : State) : Prop :=
  s.start.phase ≠ .over →
    s.station.state = .start ∧ s.pace.run = 0 ∧ s.twist.ownOffer = 0 ∧ s.twist.sCmd = 0

/-- Trim stays within -200..+200 (R33), the commanded spindle rate within 0..Smax (R38), the own offer and
the run pace within the own pace limit (R40, R135). -/
abbrev LimitsLawful (s : State) : Prop :=
  startStill s ∧ -200 ≤ s.twist.trim ∧ s.twist.trim ≤ 200 ∧ s.twist.sCmd ≤ s.cfg.smax
    ∧ s.twist.ownOffer ≤ s.cfg.ownLimit ∧ s.pace.run ≤ s.cfg.ownLimit

/-- The lists of fixed capacity stay within it: cut list, pending arrivals and transmit queue (R94, R140,
R184). -/
abbrev CapacityLawful (s : State) : Prop :=
  s.former.cuts.length ≤ Config.cutCapacity ∧ s.pace.arrivals.length ≤ Config.arrivalCapacity
    ∧ s.ply.queue.length ≤ Config.queueCapacity

/-- The cut list stands in ascending order of position, cuts of equal position in the order of their
placement, and no two cuts share a place in that order (R94). -/
abbrev CutsLawful (s : State) : Prop :=
  s.former.cuts.Pairwise (fun x y => x.position < y.position ∨ (x.position = y.position ∧ x.placed < y.placed))
    ∧ (s.former.cuts.map (fun c => c.placed)).Nodup

/-- Until START is over the station state is START (R197), and a restart pends only in IDLE and HELD
(R158), where no run exists. -/
abbrev runBounds (s : State) : Prop :=
  (s.start.phase ≠ .over → s.station.state = .start)
    ∧ (s.station.restartPending = true → s.inRun = false)

/-- The package table holds at most 16 records, and exactly one of them is OPEN while a run exists on a
forming station, none otherwise (R91, R92, R111). -/
abbrev PackageLawful (s : State) : Prop :=
  runBounds s ∧ s.former.table.length ≤ Config.tableCapacity
    ∧ s.former.table.countP (fun r => r.state == .opened) = flag (s.inRun && s.forming)

/-- Exactly one bank is ACTIVE while a run exists and none otherwise; at most one is STAGED, and none
without a run (R115, R125). -/
abbrev BankLawful (s : State) : Prop :=
  runBounds s ∧ s.banks.toList.countP (fun b => b.state == .active) = flag s.inRun
    ∧ s.banks.toList.countP (fun b => b.state == .staged) ≤ flag s.inRun

/-- A lawful state. -/
abbrev Lawful (s : State) : Prop :=
  StationLawful s ∧ HaltsLawful s ∧ MapLawful s ∧ LimitsLawful s ∧ CapacityLawful s ∧ CutsLawful s
    ∧ PackageLawful s ∧ BankLawful s

/-- The transitions of the station state table (section 8.1), a cold reset's apart. -/
def transition : StationState → StationState → Bool
  | .start, .idle | .start, .held | .held, .start | .idle, .ready | .idle, .start | .ready, .run
  | .ready, .stopped | .ready, .idle | .run, .easing | .run, .stopped | .easing, .stopped | .easing, .run
  | .stopped, .ready | .stopped, .idle | .idle, .stopped => true
  | a, b => a == b

/-! ## Situations and answers the statements speak of -/

/-- Frames are received: the interface is on and has seen the line idle (R175). -/
abbrev listening (s : State) : Prop := s.ply.isOn = true ∧ s.ply.seenIdle = true

/-- The receive side takes a frame of this sender and destination as addressed here: frames are received,
the sender is a station other than this one, and the destination is all stations or this one (R187, R188). -/
abbrev hears (sender dest : Byte) (s : State) : Prop :=
  listening s ∧ isStation sender.toNat = true ∧ sender.toNat ≠ s.own
    ∧ (dest = 0 ∨ (dest.toNat = s.own ∧ isStation s.own = true))

/-- A frame comes from this station's own number, for all stations or for this one (R188). -/
abbrev clashes (sender dest : Byte) (s : State) : Prop :=
  listening s ∧ isStation s.own = true ∧ sender.toNat = s.own ∧ (dest = 0 ∨ dest.toNat = s.own)

/-- The line interface once such a frame has ended: the frame gap is counted and the normal hold is clear
(R175, R182). -/
def heard (s : State) : State := { s with ply := { s.ply with idle := 2, hold := false } }

/-- An ASK with this head reaches this station alone and finds room for its ANSWER (R191). -/
abbrev asked (h : AskHead) (s : State) : Prop :=
  hears h.sender h.dest s ∧ h.dest ≠ 0 ∧ s.ply.queue.length < Config.queueCapacity

/-- Nothing bars a request of the running service: no restart pends, and the station is not in START or
HELD (R158, R203). -/
abbrev serving (s : State) : Prop := s.station.restartPending = false ∧ s.station.state.reports = true

/-- A frame as it is queued. -/
def fresh (b : TxBody) : QFrame := { body := b, collisions := 0, inFlight := false }

/-- The ANSWER to an ASK: tag and request code copied, result, detail and data (R192). -/
def answerTo (h : AskHead) (code result detail : Byte) (data : List Byte) : QFrame :=
  fresh (.answer h.sender.toNat (h.tag :: code :: result :: detail :: data) false)

/-- A request that changes nothing but the line: its ANSWER is queued. -/
def answered (h : AskHead) (code result detail : Byte) (data : List Byte) (s : State) : State :=
  { s with ply := { s.ply with idle := 2, hold := false, placeHeld := false,
                               queue := s.ply.queue ++ [answerTo h code result detail data] } }

/-- A PLAIN station that forms no packages, with no check source, no mark due, nothing in its map and no
arrival on its way: a pulse has nothing to do but to measure. -/
abbrev Quiet (s : State) : Prop :=
  s.cfg.kind = .plain ∧ s.cfg.forming = false ∧ s.cfg.stepB = 0 ∧ s.marks.next = none
    ∧ s.map.entries = [] ∧ s.pace.arrivals = []

/-- A PLAIN station that forms no packages and has no check source: no window, row, cut or span takes the
pulse. -/
abbrev Plain (s : State) : Prop := s.cfg.kind = .plain ∧ s.cfg.forming = false ∧ s.cfg.stepB = 0

/-- The take-up that converts a feeder's lengths: its listen entry's, 1,000 without one. -/
def feederTakeUp (feeder : Nat) (s : State) : Nat :=
  match s.peerOf feeder with
  | some e => e.takeUp
  | none => 1000

/-- Remaining of a pending arrival after one pulse (R141). -/
def nearer (s : State) (a : Arrival) : Arrival :=
  { a with remaining := a.remaining - (s.activeStep * feederTakeUp a.feeder s / 1000 : Nat) }

/-- The entry an arrived record is offered as, closed and forwarded at insertion (R74, R79, R142). -/
def arrivedEntry (position : Nat) (s : State) (a : Arrival) : MapEntry :=
  { kind := a.kind, origin := a.origin, position, extent := a.extent * 1000 / feederTakeUp a.feeder s,
    severity := a.severity, count := a.count, isOpen := false, forwarded := true, lastLocal := false }

/-- The marks once a counted length has been tested against the next mark point (R13, R14): the 20 bits go
out when the link is free, the pins then resting with MKC low and MKD at the last of them (log entry 47), and
the mark is skipped when it is not. -/
def marksAt (len : Nat) (m : Marks) : Marks :=
  match m.next with
  | none => m
  | some point =>
    if len < point then m
    else
      { m with
        printer := match m.printer with
          | some bits => some bits
          | none => some ((List.range 20).map (fun i =>
              (m.counter / 10 ^ (4 - i / 4) % 10).testBit (3 - i % 4)))
        mkc := m.printer.isSome && m.mkc
        mkd := if m.printer.isSome = true then m.mkd else (m.counter % 10).testBit 0
        skipped := if m.printer.isSome = true then min 65535 (m.skipped + 1) else m.skipped
        counter := (m.counter + m.interval) % 100000
        next := some (point + m.interval * 1000) }

/-- The marks restarted with an interval in metres (R15). -/
def marksFrom (interval : Nat) (m : Marks) : Marks :=
  { m with
    interval := interval
    counter := interval % 100000
    next := if interval = 0 then none else some (interval * 1000) }

/-- The effective target of R36 from a bank's target10. A balancing feeder is a FEED peer of weight other than 0,
not stale, whose last report carries a window count of 1 or more, whatever its state (R35). The sum of D10 times
weight over the `n` of them is divided by 100 n, truncated toward zero, and taken from target10; the result is held
within a tenth of target10 of it, truncated, and is at least 5. -/
def aimOf (target10 : Nat) (s : State) : Nat :=
  let counts (e : ListenEntry) : Bool := e.status == .peer && e.role == .feed && e.weight != 0 && !e.stale
    && (match e.lastReport with
      | some r => decide (1 ≤ r.windowCount)
      | none => false)
  let feeders := s.pace.listen.toList.filter counts
  let sum : Int := (feeders.map (fun e => (match e.lastReport with
    | some r => r.lastD10
    | none => 0) * e.weight)).sum
  let shift : Int := if feeders = [] then 0 else sum.tdiv (100 * feeders.length)
  let band : Int := target10 * 100 / 1000
  (max 5 (max (target10 - band) (min (target10 + band) (target10 - shift)))).toNat

/-- What a run of flagged windows or rows does to the map's entries (R29 to R31, R57 to R59, R69): its open
entry is extended to the run position, or opened once the run has reached the threshold; the end of the run
closes it. `major` is this window or row, `runMajor` the run. -/
def runLogged (kind : EntryKind) (flagged major runMajor : Bool) (start count run threshold pos : Nat)
    (entries : List MapEntry) : List MapEntry :=
  if flagged = false then
    entries.map (fun e => if e.isOpen && e.kind == kind then { e with isOpen := false, forwarded := true }
      else e)
  else if entries.any (fun e => e.isOpen && e.kind == kind) = true then
    entries.map (fun e => if e.isOpen && e.kind == kind then
      { e with extent := pos - e.position, count := count
               severity := if major then .major else e.severity } else e)
  else if threshold ≤ run then
    insertEntry { kind := kind, origin := 0, position := start, extent := pos - start,
                  severity := if runMajor then .major else .minor, count := count, isOpen := true,
                  forwarded := false, lastLocal := false } entries
  else entries

/-- A pending cut back in its place: by position, and after those of equal position placed earlier (R94). -/
def cutMoved (c : Cut) (cuts : List Cut) : List Cut :=
  let earlier (x : Cut) : Bool := decide (x.position < c.position ∨ (x.position = c.position ∧ x.placed ≤ c.placed))
  cuts.takeWhile earlier ++ c :: cuts.dropWhile earlier

/-- A new cut in its place by position, after cuts of equal position, the latest placed of all (R94). -/
def cutPlaced (c : Cut) (cuts : List Cut) : List Cut :=
  let level (x : Cut) : Bool := decide (x.position ≤ c.position)
  cuts.takeWhile level ++ { c with placed := (cuts.map (fun x => x.placed + 1)).foldl max 0 }
    :: cuts.dropWhile level

/-- A cut moved up to a position at least; a cut that so moves is not firm until X past its new position is
reached (R95, R104; log entry 6). -/
def raisedTo (position : Nat) (c : Cut) : Cut :=
  { c with position := max c.position position, firm := c.firm && decide (position ≤ c.position) }

/-- A cut with its firm mark set when `x` past its position is reached and it does not wait (R95). -/
def firmed (x pos : Nat) (c : Cut) : Cut :=
  { c with firm := c.firm || (!c.waiting && decide (c.position + x ≤ pos)) }

/-- A cut whose fire point lies ahead, or that waits (R94, R103). -/
abbrev ahead (s : State) (c : Cut) : Prop := c.waiting = true ∨ s.pos < c.position + s.cfg.cutterOffset

/-- The plan of an open package is due (R97). -/
abbrev planDue (s : State) (type : PackageType) (start : Nat) (page : PackagePage) (cuts : List Cut) : Prop :=
  type = .normal ∧ start + page.target ≤ s.pos + max page.planDistance (min page.margin s.cfg.cutterOffset)
    ∧ (∀ c ∈ cuts, c.purpose = .scrapEnd) ∧ cuts.length < 6

/-- At a pulse nothing is left for the package former: no cut stands at its fire point, and no plan is due
(R96, R97). -/
abbrev formerDone (s : State) : Prop :=
  (∀ c ∈ s.former.cuts, ahead s c) ∧
    ∀ p, s.openPackage = some p →
      ¬ planDue s p.type p.startPos (s.packagePage p.bank) s.former.cuts

/-- No blocker of the map meets the window of a cut at `y` with exclusion `x` (R89). -/
abbrev freeAt (x : Nat) (entries : List MapEntry) (y : Int) : Prop :=
  ∀ e ∈ entries, e.blocker = true →
    y + x ≤ e.position ∨ ((e.position + e.extent : Nat) : Int) + x ≤ y

/-- A new cut at a position, not firm, not waiting and not placed yet. -/
def cutAt (position : Nat) (purpose : CutPurpose) (plan : Option PlanReason) (pairStart : Option Nat) : Cut :=
  { position, purpose, firm := false, plan, waiting := false, pairStart, placed := 0 }

/-- The former with a place free in its table: at 16 records the oldest REPORTED one goes, and with none the
oldest CLOSED one, counted in `reports_lost` (R92). -/
def roomMade (f : Former) : Former :=
  if f.table.length < 16 then f
  else match f.table.findIdx? (fun r => r.state == .reported) with
    | some i => { f with table := f.table.eraseIdx i }
    | none => match f.table.findIdx? (fun r => r.state == .closed) with
      | some i => { f with table := f.table.eraseIdx i, reportsLost := min 65535 (f.reportsLost + 1) }
      | none => f

/-- The defect items of what a close at `k` takes, in map order, heads of straddling entries among whole entries
(log entry 30). Offsets count from the package start; a part before the start is left out (R106, R107). -/
def itemsAt (start k : Nat) (entries : List MapEntry) : List DefectItem :=
  entries.map (fun e => {
    offset := max e.position start - start, kind := e.kind
    extent := min (e.position + e.extent) k - max e.position start, severity := e.severity, origin := e.origin })

/-- The items a defects list of 8 keeps: those offered while there is room, and a MAJOR one, which no CHANGE is
(log entry 50), in the place of the first MINOR or CHANGE item of a full list (R107). -/
def keptItems (items : List DefectItem) : List DefectItem :=
  let light (d : DefectItem) : Bool := d.severity == .minor || d.kind == .change
  items.foldl (fun kept d =>
    if kept.length < 8 then kept ++ [d]
    else if light d then kept
    else match kept.findIdx? light with
      | some i => kept.set i d
      | none => kept) []

/-- The PKG frame of a closed record (R110). -/
def pkgFrame (r : PackageRecord) : QFrame :=
  fresh (.pkg {
    number := r.number, type := r.type, bank := r.bank, productCode := r.productCode, startPos := r.startPos
    length := r.endPos.getD r.startPos - r.startPos, joinCount := r.joinCount
    defectCount := r.defects.length + r.defectsDropped
    grade := r.grade, reason := r.reason })

/-- What the owner of a dropped frame is told: a PKG's record becomes UNSENT, the ANSWER to an accepted RESTART
has gone, and no other kind is reported (R93, R158, R183). -/
def dropTold (b : TxBody) (s : State) : State :=
  match b with
  | .pkg p => { s with former := { s.former with table := s.former.table.map (fun r =>
      if r.number = p.number ∧ r.state = .closed then { r with report := some .unsent } else r) } }
  | .answer _ _ true => { s with station := { s.station with answerGone := true } }
  | _ => s

/-- The records whose PKG frame a close queues again, in order of opening (R93). -/
def unsentOf (table : List PackageRecord) : List PackageRecord :=
  table.filter (fun r => r.state == .closed && r.report == some .unsent)

/-- The state with no bank STAGED: a STAGED one stands LOADED. -/
def unstaged (s : State) : State :=
  { s with banks := s.banks.map (fun b => if b.state = .staged then { b with state := .loaded } else b) }

/-- The accumulator after one more pulse of the active source (R1, R2). -/
def accAfterPulse (s : State) : Nat := min 4294967295999 (s.length.acc + s.activeStep)

/-- The state once a pulse of the active source has moved the position and, in RUN, ended a dwell and loaded
the dwell countdown, before any other block takes the pulse (R1, R9, R11, R61). -/
def movedByPulse (s : State) : State :=
  if s.station.state = .run then
    { s with
      length := { s.length with
        acc := accAfterPulse s, dwelling := false, dwellCount := s.cfg.dwellTime * 10 }
      knot := if s.length.dwelling then { s.knot with prevClose := none } else s.knot }
  else { s with length := { s.length with acc := accAfterPulse s } }

/-- The entries that stay in the map of a station that forms no packages at that pulse: closed ones further
behind than the retention distance leave, none at a saturated position (R82; log entry 55). -/
def keptByPulse (s : State) : List MapEntry :=
  if 4294967295 ≤ s.pos then s.map.entries
  else s.map.entries.filter (fun e =>
    e.isOpen || decide (accAfterPulse s / 1000 ≤ e.position + e.extent + s.cfg.retention))

/-- The pulse carries no position across 4,000,000,000 mm (R2). -/
abbrev withinRunLimit (s : State) : Prop := 4000000000 ≤ s.pos ∨ accAfterPulse s / 1000 < 4000000000

/-- The offered entry as the map takes it when it is closed at insertion: forwarded (R79). -/
def closedPoint (kind : EntryKind) (position : Nat) : MapEntry :=
  { kind, origin := 0, position, extent := 0, severity := .minor, count := 1, isOpen := false,
    forwarded := true, lastLocal := true }

/-- The map with a new last local entry of its kind inserted by position (R68, R71). -/
def withPoint (kind : EntryKind) (s : State) : State :=
  { s with map := { s.map with
      entries := insertEntry (closedPoint kind s.pos) (s.map.entries.map (fun e =>
        if e.lastLocal && e.kind == kind then { e with lastLocal := false } else e)) } }

/-! ## Requests as they arrive -/

/-- The command of a request byte (R190). -/
def askOf (code : Byte) (a : Ask) : Instr :=
  match code.toNat with
  | 1 => .askStatus a
  | 2 => .askLine a
  | 3 => .askPeers a
  | 4 => .askMap a
  | 5 => .askPackage a
  | 6 => .askBankRead a
  | 7 => .askBankWrite a
  | 8 => .askRun a
  | 9 => .askChange a
  | 10 => .askGo a
  | 11 => .askStop a
  | 12 => .askClear a
  | 13 => .askEnd a
  | 14 => .askRestart a
  | _ => .askUnknown code a

/-- The operands are as many as the request takes and in their ranges, choice fields of a written page with
valid codes (R112, R117 to R121, R147, R163, R190, R195); what fails is refused with MALFORMED. -/
def operandsFit (code : Byte) (args : List Byte) : Bool :=
  let n := args.length
  let at_ (i : Nat) : Nat := (args.getD i 0).toNat
  let choice (i : Nat) : Bool := decide (1 ≤ at_ i ∧ at_ i ≤ 2)
  match code.toNat with
  | 1 => decide (n ≤ 1 ∧ at_ 0 ≤ 12)
  | 2 | 12 => decide (n ≤ 1 ∧ at_ 0 ≤ 1)
  | 3 => decide (1 ≤ n ∧ n ≤ 2 ∧ at_ 0 ≤ 5 ∧ at_ 1 ≤ 2)
  | 4 => decide (n = 1)
  | 5 => decide (n = 3 ∧ at_ 2 ≤ 3)
  | 6 => decide (n = 2 ∧ at_ 0 ≤ 3 ∧ at_ 1 ≤ 2)
  | 7 => decide (at_ 0 ≤ 3) && (decide (at_ 1 = 0 ∧ n = 12)
      || (decide (at_ 1 = 1 ∧ n = 13) && choice 5 && choice 12)
      || decide (at_ 1 = 2 ∧ n = 22 ∧ at_ 17 ≤ 1 ∧ at_ 18 ≤ 1))
  | 8 | 9 => decide (n = 1 ∧ at_ 0 ≤ 3)
  | 11 => decide (n = 1) && choice 0
  | 10 | 13 | 14 => decide (n = 0)
  | _ => false

/-- Counts a field whose stored value differs from the value sent (R117). -/
def changed (sent stored : Nat) : Nat := if stored = sent then 0 else 1

/-- A byte of a page as a number, and runs of bytes high byte first. -/
def at1 (bs : List Byte) (i : Nat) : Nat := (bs.getD i 0).toNat
def at2 (bs : List Byte) (i : Nat) : Nat := at1 bs i * 256 + at1 bs (i + 1)
def at3 (bs : List Byte) (i : Nat) : Nat := at2 bs i * 256 + at1 bs (i + 2)
def at4 (bs : List Byte) (i : Nat) : Nat := at3 bs i * 256 + at1 bs (i + 3)

/-- The twist page that 10 bytes store, tolX clamped against the stored tolM, and the number of fields
clamped (R117, R195). -/
def twistWritten (bs : List Byte) : TwistPage × Nat :=
  let tolM := max 5 (min 200 (at2 bs 2))
  let p : TwistPage := {
    target10 := max 5 (min 20000 (at2 bs 0)), tolM := tolM, tolX := max tolM (min 400 (at2 bs 4))
    persistence := max 1 (min 8 (at1 bs 6)), gain := min 15 (at1 bs 7), lw := max 200 (min 5000 (at2 bs 8)) }
  (p, changed (at2 bs 0) p.target10 + changed (at2 bs 2) p.tolM + changed (at2 bs 4) p.tolX
    + changed (at1 bs 6) p.persistence + changed (at1 bs 7) p.gain + changed (at2 bs 8) p.lw)

/-- The knot page that 11 bytes store, and the number of fields clamped (R117, R195); a choice code that names
no choice stands as ANY or FIRST (R201). -/
def knotWritten (bs : List Byte) : KnotPage × Nat :=
  let p : KnotPage := {
    sections := max 1 (min 8 (at1 bs 0)), expected := max 1 (min 250 (at1 bs 1))
    threshold := max 1 (min 15 (at1 bs 2)), mode := if at1 bs 3 = 2 then .all else .any
    duration := max 1 (min 4 (at1 bs 4)), majorRow := max 1 (at1 bs 5)
    runLimit := max 1 (min 1000 (at2 bs 6)), meshTol := max 10 (min 300 (at2 bs 8))
    meshRef := if at1 bs 10 = 2 then .prev else .first }
  (p, changed (at1 bs 0) p.sections + changed (at1 bs 1) p.expected + changed (at1 bs 2) p.threshold
    + changed (at1 bs 4) p.duration + changed (at1 bs 5) p.majorRow + changed (at2 bs 6) p.runLimit
    + changed (at2 bs 8) p.meshTol)

/-- The package page that 20 bytes store, and the number of fields clamped (R117, R195); a choice code that is
neither no nor yes stands as no (R201). -/
def packageWritten (bs : List Byte) : PackagePage × Nat :=
  let p : PackagePage := {
    target := max 10000 (min 20000000 (at4 bs 0)), minimum := max 500 (min 1000 (at2 bs 4))
    maximum := max 1000 (min 1500 (at2 bs 6)), margin := min 10000 (at2 bs 8)
    planDistance := max 1000 (min 100000 (at3 bs 10)), maxJoins := min 4 (at1 bs 13)
    minorAllowance := min 8 (at1 bs 14), cutOutMajor := decide (at1 bs 15 = 1)
    haltAtClose := decide (at1 bs 16 = 1), markInterval := min 100 (at1 bs 17), productCode := at2 bs 18 }
  (p, changed (at4 bs 0) p.target + changed (at2 bs 4) p.minimum + changed (at2 bs 6) p.maximum
    + changed (at2 bs 8) p.margin + changed (at3 bs 10) p.planDistance + changed (at1 bs 13) p.maxJoins
    + changed (at1 bs 14) p.minorAllowance + changed (at1 bs 17) p.markInterval)

/-! ## Layouts of the answers -/

/-- A run of fields, each as its bytes and its value: high byte first, two's complement (R177). -/
def coded (fields : List (Nat × Int)) : List Byte :=
  fields.flatMap (fun f => (List.range f.1).map (fun i => BitVec.ofInt 8 (f.2 / 256 ^ (f.1 - 1 - i))))

/-- An unsigned field of `n` bytes. -/
def num (n v : Nat) : Nat × Int := (n, v)

/-- A signed field of `n` bytes. -/
def sgn (n : Nat) (v : Int) : Nat × Int := (n, v)

/-- No or yes, 0 or 1 (R177). -/
def yes (b : Bool) : Nat := if b then 1 else 0

/-- The set of the members 0 to n − 1 for which `p` holds (R177). -/
def members (n : Nat) (p : Nat → Bool) : Nat := ((List.range n).map (fun i => if p i then 2 ^ i else 0)).sum

/-- A cause and its origin, 0 and 0 for none (R177). -/
def causeFields : Option HeldCause → List (Nat × Int)
  | none => [num 1 0, num 1 0]
  | some h => [num 1 h.cause.rank, num 1 h.origin]

/-- An open entry of a kind is in the map. -/
def hasOpen (k : EntryKind) (s : State) : Nat := yes (s.map.entries.any (fun e => e.isOpen && e.kind == k))

/-- The pages of STATUS, 0 to 12 (R193, R204). -/
def statusLayout (s : State) : Nat → List (Nat × Int)
  | 0 =>
    [num 1 (Code.stationState s.station.state), num 1 (yes s.station.restartPending),
     num 1 (Code.startReason s.start.reason), num 1 s.start.clamped,
     num 2 (members 13 (fun i => s.station.locals.any (fun c => c.rank == i + 1))),
     num 1 s.station.peers.length]
    ++ causeFields (s.station.inService s.own) ++ causeFields s.station.firstCause
    ++ causeFields s.station.prevFirst
    ++ [num 1 (yes s.station.den), num 1 (yes s.station.alm), num 1 s.own,
        num 1 (match s.start.settings with
          | some c => Code.machineKind c.kind
          | none => 0),
        num 1 (yes s.cfg.forming)]
  | 1 => (List.range 8).flatMap (fun i => match s.station.peers[i]? with
      | some p => [num 1 p.origin, num 1 (Code.level p.level)]
      | none => [num 1 0, num 1 0])
  | 2 =>
    [num 4 s.pos, num 1 (Code.source s.length.source), num 1 (yes s.length.degraded),
     num 1 (yes s.length.dwelling), num 2 s.length.lastSlip, num 1 s.length.badSpans, num 3 s.marks.counter,
     num 1 (yes (decide (s.marks.interval ≠ 0))), num 2 s.marks.skipped]
  | 3 =>
    [num 2 (s.twist.lastT10.getD 0), sgn 3 s.twist.lastD10, sgn 2 (s.twist.lastE.getD 0),
     num 1 (match s.twist.lastClass with
       | some c => Code.windowClass c
       | none => 1),
     num 2 s.twist.windowCount, sgn 2 s.twist.trim, num 2 (s.twist.eff10.getD 0), num 2 s.twist.sCmd,
     num 2 s.twist.ownOffer, num 1 (yes s.twist.windowOpen), num 1 (hasOpen .twist s)]
  | 4 =>
    [num 2 s.knot.last.missing, num 1 (yes s.knot.last.knotFlag), num 1 (yes s.knot.last.major),
     num 1 (yes s.knot.last.meshFlag), num 4 (s.knot.last.advance.getD 0),
     num 2 (s.knot.last.deviation.getD 0), num 2 s.knot.rowsClosed, num 2 s.knot.knotRows, num 2 s.knot.meshRows,
     num 2 s.knot.knotRun, num 1 s.knot.meshRun]
  | 5 =>
    [num 4 (s.knot.firstRef.getD 0), num 4 (s.knot.prevAdvance.getD 0), num 1 (hasOpen .knot s),
     num 1 (hasOpen .mesh s)]
  | 6 => s.knot.overcount.toList.map (fun n => num 2 n)
  | 7 => s.knot.counters.toList.map (fun n => num 2 n)
  | 8 =>
    [num 1 s.map.entries.length, num 1 (yes (decide (64 ≤ s.map.entries.length))), num 1 (hasOpen .twist s),
     num 1 (hasOpen .knot s), num 1 (hasOpen .mesh s), num 2 s.map.dropped, num 2 s.map.evicted]
  | 9 =>
    (match s.openPackage with
      | some p => [num 2 p.number, num 1 (Code.packageType p.type), num 4 p.startPos]
      | none => [num 2 0, num 1 0, num 4 0])
    ++ [num 1 s.former.table.length, num 2 s.former.nextNumber, num 1 s.former.cuts.length,
        num 2 s.former.reportsLost, num 2 s.former.cutsRefused]
  | 10 => (List.range 3).flatMap (fun i => match s.former.cuts[i]? with
      | some c => [num 4 c.position, num 1 (Code.cutPurpose c.purpose),
                   num 1 (yes c.firm + 2 * yes c.waiting)]
      | none => [num 4 0, num 1 0, num 1 0])
  | 11 =>
    s.banks.toList.map (fun b => num 1 (Code.bankState b.state))
    ++ s.banks.toList.map (fun b => num 1 (yes b.twist.isSome + 2 * yes b.knot.isSome
        + 4 * yes b.package.isSome))
    ++ [num 1 (s.activeBank.getD 255), num 1 (s.stagedBank.getD 255)]
  | _ =>
    [num 2 s.pace.feedOffer, num 2 s.pace.takeOffer, num 2 s.pace.target, num 2 s.pace.run,
     num 1 s.pace.listenFaults,
     num 1 (members 6 (fun i => (s.pace.listen.toList.getD i .reset).status == .ignored)),
     num 1 (members 6 (fun i => (s.pace.listen.toList.getD i .reset).status == .peer
        && (s.pace.listen.toList.getD i .reset).stale)),
     num 1 s.pace.arrivals.length,
     sgn 4 (match s.pace.arrivals with
       | a :: _ => min 2147483647 a.remaining
       | [] => 0),
     num 2 s.pace.arrivalsDropped, num 2 s.pace.handoffsIgnored]

/-- LINE's data (R189). -/
def lineLayout (p : Ply) : List (Nat × Int) :=
  [num 2 p.lineErrors, num 2 p.numberClash, num 2 p.asksDropped, num 2 p.collisions, num 2 p.collisionDrops,
   num 2 p.queueDrops]
  ++ (match p.firstError with
    | some f => [num 1 1, num 1 (Code.lineError f.error), num 1 f.byte0, num 1 f.byte1]
    | none => [num 1 0, num 1 0, num 1 0, num 1 0])

/-- MAP's data (R194). -/
def entryLayout (e : MapEntry) : List (Nat × Int) :=
  [num 1 (Code.entryKind e.kind), num 1 e.origin, num 4 e.position, num 4 e.extent,
   num 1 (Code.severity e.severity), num 1 e.count, num 1 (yes e.isOpen), num 1 (yes e.forwarded)]

/-- PACKAGE's data by page (R194); an OPEN record shows its length so far. -/
def packageLayout (pos : Nat) (r : PackageRecord) : Nat → List (Nat × Int)
  | 0 =>
    [num 2 r.number, num 1 (Code.packageType r.type), num 1 r.bank, num 2 r.productCode, num 4 r.startPos,
     num 4 (r.endPos.getD pos - r.startPos), num 1 r.joinCount, num 1 r.defectsDropped,
     num 1 (Code.grade r.grade), num 1 (Code.closeReason r.reason), num 1 (Code.packageState r.state),
     num 1 (Code.reportState r.report)]
  | 1 => num 1 r.joinCount :: (List.range 4).map (fun i => num 4 (r.joins[i]?.getD 0))
  | page => (List.range 4).flatMap (fun i => match r.defects[4 * (page - 2) + i]? with
      | some d => [num 1 (Code.entryKind d.kind + (match d.severity with
                      | .major => 16
                      | .minor => 0)),
                   num 1 d.origin, num 2 (d.offset / 1000),
                   num 1 (min 255 (d.extent / 1000))]
      | none => [num 1 0, num 1 0, num 2 0, num 1 0])

/-- Detail of a PACKAGE answer by page (R194). -/
def packageDetail (r : PackageRecord) : Nat → Nat
  | 0 => 0
  | 1 => r.joins.length
  | _ => r.defects.length

/-- The PACE layout (R178). -/
def reportLayout (r : PaceReport) : List (Nat × Int) :=
  [num 1 (16 * r.activeBank + Code.stationState r.state), num 1 r.serviceCause, num 1 r.serviceOrigin,
   num 1 r.firstCause, num 1 r.firstOrigin, num 2 r.ownOffer, num 2 r.feedOffer, num 2 r.takeOffer,
   num 2 r.runPace, sgn 3 r.lastD10, num 2 r.windowCount, num 2 r.productCode, num 4 r.position]

/-- The HANDOFF layout (R179). -/
def copyLayout (c : HandoffCopy) : List (Nat × Int) :=
  [num 1 (Code.entryKind c.kind), num 1 c.origin, num 1 (Code.severity c.severity), num 1 c.count,
   num 4 c.extent, sgn 4 c.travel]

/-- The PKG layout (R180). -/
def pkgLayout (p : PkgSummary) : List (Nat × Int) :=
  [num 2 p.number, num 1 (Code.packageType p.type), num 1 p.bank, num 2 p.productCode, num 4 p.startPos,
   num 4 p.length, num 1 p.joinCount, num 2 p.defectCount, num 1 (Code.grade p.grade),
   num 1 (Code.closeReason p.reason)]

/-- The 16-bit cyclic check with polynomial x^16 + x^12 + x^5 + 1 over a run of bytes, each most significant bit
first: the register starts at all ones, each bit shifts it up by one, and 1021 hexadecimal is added without carry
when the bit shifted out differs from the one fed in (R176). -/
def cyclicCheck (bs : List Byte) : Nat :=
  (bs.flatMap (fun b => (List.range 8).map (fun i => b.toNat.testBit (7 - i)))).foldl
    (fun r bit => if r.testBit 15 = bit then r * 2 % 65536 else Nat.xor (r * 2 % 65536) 0x1021) 65535

/-- A frame of `own`: byte 0, sender, destination, payload length, payload, and the two check bytes (R176). -/
def framed (byte0 : Byte) (own dest : Nat) (payload : List Byte) : List Byte :=
  let body := byte0 :: BitVec.ofNat 8 own :: BitVec.ofNat 8 dest :: BitVec.ofNat 8 payload.length :: payload
  body ++ [BitVec.ofNat 8 (cyclicCheck body / 256), BitVec.ofNat 8 (cyclicCheck body)]

/-- The payload length is one its kind admits (R176). -/
def sizeOfKind (kind len : Nat) : Bool :=
  match kind with
  | 1 => len == 24 | 2 => len == 2 | 3 => len == 1 | 4 => len == 1 | 5 => len == 12 | 6 => len == 19
  | 7 => decide (2 ≤ len ∧ len ≤ 24) | 8 => decide (4 ≤ len ∧ len ≤ 24) | _ => false

/-- Test 1 of R187 fails: fewer than 6 bytes, a payload length byte above 24, or another length than 6 + that
byte. -/
abbrev lengthBad (bs : List Byte) : Prop := bs.length < 6 ∨ 24 < at1 bs 3 ∨ bs.length ≠ 6 + at1 bs 3

/-- Test 2 of R187 fails: the check bytes behind a payload of `p` bytes, high byte first, differ from the check
over bytes 0 to 3 + p. -/
abbrev checkBad (bs : List Byte) : Prop :=
  at1 bs (4 + at1 bs 3) * 256 + at1 bs (5 + at1 bs 3) ≠ cyclicCheck (bs.take (4 + at1 bs 3))

/-- The first of tests 3 to 5 that a frame with a good length and check fails (R187). -/
def laterTest (bs : List Byte) : Option LineError :=
  let kind := at1 bs 0 % 16
  if kind = 0 ∨ 8 < kind then some .kind
  else if sizeOfKind kind (bs.length - 6) = false then some .size
  else if at1 bs 1 = 0 ∨ 62 < at1 bs 1 ∨ 62 < at1 bs 2 then some .address
  else none

/-- PEERS's data by page of a used entry (R147, R194): the settings, then offsets 0 to 17 and 18 to 23 of the
last report; an ignored entry's runtime fields show as absent. -/
def peerLayout (e : ListenEntry) (page : Nat) : List Byte :=
  let live := decide (e.status = .peer)
  if page = 0 then
    coded [num 1 e.number, num 1 (Code.listenRole e.role), num 2 e.takeUp, num 3 e.path,
      num 1 (Code.level e.follow), sgn 1 e.weight, num 1 (if live then 1 else 2),
      num 1 (yes (live && e.lastReport.isSome)),
      num 1 (yes (live && e.stale)), num 1 (if live then e.staleCount else 0)]
  else
    let shown := match e.lastReport with
      | some r => if live then coded (reportLayout r) else List.replicate 24 0
      | none => List.replicate 24 0
    if page = 1 then shown.take 18 else shown.drop 18

/-- BANK_READ's data by page (R195), none for a page that was not written. -/
def bankLayout (b : Bank) : Nat → Option (List (Nat × Int))
  | 0 => b.twist.map (fun p =>
      [num 2 p.target10, num 2 p.tolM, num 2 p.tolX, num 1 p.persistence, num 1 p.gain, num 2 p.lw])
  | 1 => b.knot.map (fun p =>
      [num 1 p.sections, num 1 p.expected, num 1 p.threshold, num 1 (Code.knotMode p.mode),
       num 1 p.duration, num 1 p.majorRow, num 2 p.runLimit, num 2 p.meshTol, num 1 (Code.meshRef p.meshRef)])
  | _ => b.package.map (fun p =>
      [num 4 p.target, num 2 p.minimum, num 2 p.maximum, num 2 p.margin, num 3 p.planDistance,
       num 1 p.maxJoins, num 1 p.minorAllowance, num 1 (yes p.cutOutMajor), num 1 (yes p.haltAtClose),
       num 1 p.markInterval, num 2 p.productCode])

/-- A report whose fields fit the PACE layout (R178). -/
abbrev reportFits (r : PaceReport) : Prop :=
  r.state.reports = true ∧ r.activeBank ≤ 3 ∧ r.serviceCause ≤ 13 ∧ r.serviceOrigin ≤ 255
    ∧ r.firstCause ≤ 13 ∧ r.firstOrigin ≤ 255 ∧ r.ownOffer ≤ 65535 ∧ r.feedOffer ≤ 65535
    ∧ r.takeOffer ≤ 65535 ∧ r.runPace ≤ 65535 ∧ -8388608 ≤ r.lastD10 ∧ r.lastD10 ≤ 8388607
    ∧ r.windowCount ≤ 65535 ∧ r.productCode ≤ 65535 ∧ r.position ≤ 4294967295

/-- A HANDOFF copy whose fields fit its layout (R179). -/
abbrev copyFits (c : HandoffCopy) : Prop :=
  1 ≤ c.origin ∧ c.origin ≤ 62 ∧ 1 ≤ c.count ∧ c.count ≤ 255 ∧ c.extent ≤ 4294967295
    ∧ -2147483648 ≤ c.travel ∧ c.travel ≤ 2147483647

end Sys2Proof.Safety
end

