-- ==== Sys2Proof/WellFormed.lean ====
section
/-!
DEFINITION. Which terms of `Instr` are commands of the table: a frame row stands for a frame that passed
every test of R187, RECEIVE_ERROR for a run of bytes that fails one, and each ASK row for its own requests.
The meanings are total: `exec` gives ill-formed terms the effect their bytes would have.
-/

namespace Sys2Proof.WellFormed

open Sys2Proof.Machine

/-- A frame of a kind that passes every test of R187, whatever its destination among 0..62. -/
def frame (kind : Nat) (f : RxFrame) : Bool :=
  decide (f.payload.length ≤ 24) && sizeFits kind f.payload.length && isStation f.sender.toNat
    && decide (f.dest.toNat ≤ 62)

/-- The head of an ASK frame: a sender 1..62 and a destination 0..62. -/
def head (h : AskHead) : Bool := isStation h.sender.toNat && decide (h.dest.toNat ≤ 62)

/-- An ASK frame: its payload of 2 to 24 bytes leaves at most 22 operand bytes. -/
def ask (a : Ask) : Bool := head a.head && decide (a.args.length ≤ 22)

/-- A request byte that is no request of the table (R190). -/
def unknownRequest (code : Byte) : Bool := code == 0 || decide (14 < code.toNat)

/-- A run of bytes that fails a test of R187. The station's own number has no part in those tests. -/
def failing (bs : List Byte) : Bool :=
  lengthFails bs || checkFails bs ||
    match rxFate 0 (frameOf bs).1 (frameOf bs).2 with
    | .error _ => true
    | .otherStation | .clash | .received => false

/-- The command is one the table's rows describe. -/
def command : Instr → Bool
  | .coldReset => true
  | .resetRelease _ => true
  | .blockReadAttempt _ => true
  | .readRetry => true
  | .warmRestart _ => true
  | .activeSourcePulse => true
  | .nonActiveSourcePulse => true
  | .spindlePulse => true
  | .rowStroke => true
  | .sectionEdge _ => true
  | .jniEdge => true
  | .brkActive => true
  | .brkInactive => true
  | .stpEdge => true
  | .staEdge => true
  | .clrEdge => true
  | .regulationTick => true
  | .dwellStart => true
  | .pacePeriodExpiry => true
  | .peerStale _ => true
  | .markShiftComplete => true
  | .cutPulseEnd => true
  | .accessStart => true
  | .frameSent => true
  | .collision => true
  | .normalHoldTimeout => true
  | .paceFrame f => frame 1 f
  | .haltFrame f => frame 2 f
  | .resumeFrame f => frame 3 f
  | .goFrame f => frame 4 f
  | .handoffFrame f => frame 5 f
  | .pkgFrame f => frame 6 f
  | .answerFrame f => frame 8 f
  | .askStatus a => ask a
  | .askLine a => ask a
  | .askPeers a => ask a
  | .askMap a => ask a
  | .askPackage a => ask a
  | .askBankRead a => ask a
  | .askBankWrite a => ask a
  | .askRun a => ask a
  | .askChange a => ask a
  | .askGo a => ask a
  | .askStop a => ask a
  | .askClear a => ask a && a.args != [1]
  | .askClearForce h => head h
  | .askEnd a => ask a
  | .askRestart a => ask a
  | .receiveError cs => failing (cs.map LineByte.data)
  | .askUnknown code a => ask a && unknownRequest code
  | .burstNextFrame => true

end Sys2Proof.WellFormed
end

