-- ==== Sys2Proof/Certificates/Slice0/Obligations.lean ====
section
/-!
DEFINITION. Statements for the provers. Each docstring names the rules of spec/ that a statement
formalises. A next state is written out where a command's whole effect fits; elsewhere the parts of it
that the rules give are stated with the parts they leave alone.
-/

open Sys2Proof Sys2Proof.Machine Sys2Proof.Safety

/-! ## The queue of commands -/

/-- A step takes the command at the front of the queue and performs it with the queue's rest. -/
def Obligations.StepRunsTheFrontCommand : Prop :=
  ∀ (s : State) (c : Instr) (rest : List Instr), s.pending = c :: rest →
    step s = exec c { s with pending := rest }

/-- With no command waiting, one slot of the line passes without a start bit (the model's choice, log
entry 10): the idle count rises, the line has been seen idle at 2, and the normal hold clears at 128 (R175,
R182). -/
def Obligations.StepWithoutCommandPassesOneIdleSlot : Prop :=
  ∀ s : State, s.pending = [] →
    step s = .next (if s.ply.isOn = true ∧ s.ply.sending = false then
      { s with ply := { s.ply with
          idle := min 255 (s.ply.idle + 1)
          seenIdle := s.ply.seenIdle || decide (2 ≤ min 255 (s.ply.idle + 1))
          hold := s.ply.hold && decide (min 255 (s.ply.idle + 1) < 128) } }
      else s)

/-- Every command completes and leaves the waiting commands as they stand; the straps' number, the block
image, the configuration values and the start result change at the commands of reset and START alone
(R197 to R202). That the waiting commands outlast the two resets is the model's choice (log entry 3). -/
def Obligations.EveryCommandCompletesAndKeepsTheQueue : Prop :=
  ∀ (c : Instr) (s : State), ∃ t, exec c s = .next t ∧ t.pending = s.pending ∧
    (c ≠ .coldReset → (∀ x, c ≠ .resetRelease x) → (∀ x, c ≠ .blockReadAttempt x) → c ≠ .readRetry →
      (∀ x, c ≠ .warmRestart x) → t.start = s.start)

/-! ## Reset and START (chapter 10) -/

/-- COLD_RESET gives the state after reset from any state (R158, R197); the level of the BRK pin and the
commands waiting are not the part's to reset (log entry 3). That state holds the values of the chapters'
tables (R20, R46, R66, R88, R114, R116, R150, R174, R196), with START at its beginning; the values no rule
states (log entries 2 and 4) are not mentioned. -/
def Obligations.ColdResetGivesTheResetState : Prop :=
  let r := State.reset
  (∀ s : State, exec .coldReset s = .next { r with
    station := { r.station with brkActive := s.station.brkActive }, pending := s.pending }) ∧
  (r.start.phase = .inReset ∧ r.start.image = none ∧ r.start.attempts = 0 ∧ r.start.reason = .none
    ∧ r.start.clamped = 0 ∧ r.start.settings = none ∧ r.start.bus = []
    ∧ r.start.scl = true ∧ r.start.sda = true) ∧
  (r.station.state = .start ∧ r.station.restartPending = false ∧ r.station.locals = []
    ∧ r.station.peers = [] ∧ r.station.inService r.own = none ∧ r.station.firstCause = none
    ∧ r.station.prevFirst = none ∧ r.station.den = false ∧ r.station.alm = false) ∧
  (r.length.acc = 0 ∧ r.pos = 0 ∧ r.length.source = .a ∧ r.length.switched = false
    ∧ r.length.degraded = false ∧ r.length.la = 0 ∧ r.length.lb = 0 ∧ r.length.badSpans = 0
    ∧ r.length.lastSlip = 0 ∧ r.length.dwelling = false ∧ r.length.dwellCount = 0) ∧
  (r.marks.counter = 0 ∧ r.marks.next = none ∧ r.marks.interval = 0 ∧ r.marks.printer = none
    ∧ r.marks.mkc = false ∧ r.marks.mkd = false ∧ r.marks.skipped = 0) ∧
  (r.twist.windowOpen = false ∧ r.twist.pulses = 0 ∧ r.twist.width = 0 ∧ r.twist.lastT10 = none
    ∧ r.twist.lastD10 = 0 ∧ r.twist.lastE = none ∧ r.twist.lastClass = none ∧ r.twist.windowCount = 0
    ∧ r.twist.offRun = 0 ∧ r.twist.offMajor = false ∧ r.twist.majorRun = 0 ∧ r.openEntry .twist = none
    ∧ r.twist.trim = 0 ∧ r.twist.eff10 = none ∧ r.twist.ownOffer = 0 ∧ r.twist.sCmd = 0
    ∧ r.twist.linkCapstan = 0 ∧ r.twist.linkSpindle = 0 ∧ r.twist.link = [] ∧ r.twist.dck = false
    ∧ r.twist.dda = false ∧ r.twist.dlt = false) ∧
  (r.knot.rowOpen = false ∧ r.knot.rowStart = 0 ∧ r.knot.prevClose = none
    ∧ r.knot.counters = Vector.replicate 8 0 ∧ r.knot.prevAdvance = none ∧ r.knot.firstRef = none
    ∧ r.knot.last = { missing := 0, knotFlag := false, major := false, advance := none, deviation := none,
                      meshFlag := false }
    ∧ r.knot.knotRun = 0 ∧ r.knot.knotStart = 0 ∧ r.knot.knotMajor = false ∧ r.knot.meshRun = 0
    ∧ r.knot.meshStart = 0 ∧ r.openEntry .knot = none ∧ r.openEntry .mesh = none
    ∧ r.knot.overcount = Vector.replicate 8 0 ∧ r.knot.rowsClosed = 0 ∧ r.knot.knotRows = 0
    ∧ r.knot.meshRows = 0) ∧
  (r.map.entries = [] ∧ (∀ k, lastLocal k r = none) ∧ r.map.dropped = 0 ∧ r.map.evicted = 0) ∧
  (r.former.table = [] ∧ r.former.nextNumber = 1 ∧ r.former.cuts = [] ∧ r.former.cutHigh = false
    ∧ r.former.reportsLost = 0 ∧ r.former.cutsRefused = 0) ∧
  (∀ k, k < 4 → (r.bank k).state = .empty ∧ (r.bank k).writtenSet = []) ∧
  (∀ e ∈ r.pace.listen.toList, e.lastReport = none ∧ e.staleCount = 0 ∧ e.stale = true) ∧
  (r.pace.listenFaults = 0 ∧ r.pace.feedOffer = 0 ∧ r.pace.takeOffer = 0 ∧ r.pace.target = 0
    ∧ r.pace.run = 0 ∧ r.pace.period = 0 ∧ r.pace.arrivals = [] ∧ r.pace.arrivalsDropped = 0
    ∧ r.pace.handoffsIgnored = 0) ∧
  (r.ply.isOn = false ∧ r.ply.idle = 0 ∧ r.ply.queue = [] ∧ r.ply.paceWaiting = none
    ∧ r.ply.paceFlight = none ∧ r.ply.hold = false ∧ r.ply.access = none ∧ r.ply.lte = false
    ∧ r.ply.wire = [] ∧ r.ply.lineErrors = 0 ∧ r.ply.numberClash = 0 ∧ r.ply.asksDropped = 0
    ∧ r.ply.collisions = 0 ∧ r.ply.collisionDrops = 0 ∧ r.ply.queueDrops = 0 ∧ r.ply.firstError = none)

/-- RESET_RELEASE samples the straps and begins the reading of the block (R197, R198). A failed read attempt
is followed by a wait, which READ_RETRY ends; the third ends START in HELD with reason NO_ACK, the line
interface on when the straps give a station number (R175, R199, R200, R203). SCL and SDA are left released
high. The bus shows the clocks that
release SDA and the bytes sent, most significant bit first, each with the memory's acknowledge bit (R199;
that record is the model's own, log entry 17). At any other time each of the three changes nothing, by log
entry 15. -/
def Obligations.StartReadsTheBlockInUpToThreeAttempts : Prop :=
  ∀ (s : State) (straps : Straps) (r : ReadResult),
    let send (x : Byte) (acknowledged : Bool) : List BusItem :=
      (List.range 8).map (fun i => .stationBit (x.getMsbD i)) ++ [.memoryBit (!acknowledged)]
    (exec (.resetRelease straps) s = .next (if s.start.phase = .inReset then
      { s with start := { phase := .attempting, number := straps.toNat, image := none, attempts := 0,
                          reason := .none, clamped := 0, settings := none, bus := []
                          scl := true, sda := true } } else s)) ∧
    (exec .readRetry s = .next (if s.start.phase = .waiting then
      { s with start := { s.start with phase := .attempting } } else s)) ∧
    (s.start.phase ≠ .attempting → exec (.blockReadAttempt r) s = .next s) ∧
    (s.start.phase = .attempting → (∀ k b, r ≠ .image k b) →
      exec (.blockReadAttempt r) s = .next (if s.start.attempts + 1 < 3 then
        { s with start := { s.start with
            phase := .waiting, attempts := s.start.attempts + 1, bus := busItems r
            scl := true, sda := true } }
        else { s with
          start := { s.start with
            phase := .over, attempts := s.start.attempts + 1, bus := busItems r, reason := .noAck
            scl := true, sda := true }
          station := { s.station with state := .held, den := false }
          ply := { s.ply with isOn := isStation s.own, seenIdle := false, idle := 0 } })) ∧
    busItems .sdaStuck = List.replicate 9 .releaseClock ∧
    (∀ k : Fin 10,
      busItems (.noAckAddress k) = List.replicate k .releaseClock
        ++ .startCond :: send 0xA8 false ++ [.stopCond] ∧
      busItems (.noAckOffset k) = List.replicate k .releaseClock
        ++ .startCond :: send 0xA8 true ++ send 0x00 false ++ [.stopCond] ∧
      busItems (.noAckRead k) = List.replicate k .releaseClock
        ++ .startCond :: send 0xA8 true ++ send 0x00 true ++ .startCond :: send 0xA9 false ++ [.stopCond])

/-- A block image is judged by tag, sum and straps in this order. A failure of tag or sum ends in HELD with
no value taken; a straps failure takes the values, the listen table and bank 0 and ends in HELD; otherwise
START ends in IDLE with the interface on, the own offer at the own pace limit and 0 and 0 on the set-point
link (R116, R127, R200, R201, R202, R203). That DCK and DLT rest low and DDA at the last bit after
that transfer is log entry 47. The bus shows the whole transfer, the last byte not acknowledged, and SCL
and SDA are released high after it (R199; that record is the model's own, log entry 17). -/
def Obligations.BlockImageIsJudgedInOrder : Prop :=
  ∀ (s : State) (k : Fin 10) (b : Vector Byte 128), s.start.phase = .attempting →
    let bits (x : Byte) : List Bool := (List.range 8).map (fun i => x.getMsbD i)
    let send (x : Byte) : List BusItem := (bits x).map .stationBit ++ [.memoryBit false]
    let read (last : Bool) (x : Byte) : List BusItem := (bits x).map .memoryBit ++ [.stationBit last]
    ∃ t, exec (.blockReadAttempt (.image k b)) s = .next t ∧
      t.start.image = some b.toList ∧ t.start.phase = .over ∧ t.start.attempts = s.start.attempts + 1 ∧
      t.start.scl = true ∧ t.start.sda = true ∧
      t.start.bus = List.replicate k .releaseClock ++ .startCond :: send 0xA8 ++ send 0x00
        ++ .startCond :: send 0xA9 ++ (b.toList.take 127).flatMap (read false)
        ++ (b.toList.drop 127).flatMap (read true) ++ [.stopCond] ∧
      t.own = s.own ∧ t.station.den = false ∧ t.ply.isOn = isStation s.own ∧ t.ply.seenIdle = false ∧
      t.length = s.length ∧ t.marks = s.marks ∧ t.knot = s.knot ∧ t.map = s.map ∧ t.former = s.former ∧
      (∀ j, 1 ≤ j → t.bank j = s.bank j) ∧
      (if b.toList.take 3 ≠ [0xC6, 0x1A, 1] then
        t.station.state = .held ∧ t.start.reason = .badTag ∧ t.start.settings = s.start.settings ∧
          t.start.clamped = s.start.clamped ∧ t.bank 0 = s.bank 0 ∧ t.twist = s.twist ∧ t.pace = s.pace
      else if (b.toList.map (fun x => x.toNat)).sum % 256 ≠ 0 then
        t.station.state = .held ∧ t.start.reason = .badSum ∧ t.start.settings = s.start.settings ∧
          t.start.clamped = s.start.clamped ∧ t.bank 0 = s.bank 0 ∧ t.twist = s.twist ∧ t.pace = s.pace
      else t.start.settings = some (takeSettings b.toList).value ∧ t.bank 0 = imageBank b.toList ∧
        t.start.clamped = min 255 (blockReplaced b.toList) ∧
        t.pace.listen.toList = (takeListen s.own b.toList).entries ∧
        t.pace.listenFaults = (takeListen s.own b.toList).faults ∧
        (if s.own = 0 ∨ 63 ≤ s.own then
          t.station.state = .held ∧ t.start.reason = .straps ∧ t.twist = s.twist
        else t.station.state = .idle ∧ t.start.reason = .none ∧ t.ply.isOn = true
          ∧ t.twist.ownOffer = t.cfg.ownLimit ∧ t.twist.linkCapstan = 0 ∧ t.twist.linkSpindle = 0
          ∧ t.twist.link = List.replicate 32 (.bit false) ++ [.latch]
          ∧ t.twist.dck = false ∧ t.twist.dda = false ∧ t.twist.dlt = false
          ∧ t.ply.paceWaiting = some ⟨buildReport t, 0⟩))

/-- The configuration values stand at their offsets, high byte first, clamped to their ranges (R201); wheel
step B may be 0. `config_clamped` counts every value so replaced, in the settings, in each listen entry (an
unused one too, log entry 12) and in the recipe image (R201). A listen entry stands in the table by R127:
unused with number 0 or no role, otherwise a peer, or ignored for its own number, a number above 62, a
repeated number or a role taken often enough; bits 7 to 4 of its role byte are not read (log entry 54). An
unused entry holds the settings of log entry 58. -/
def Obligations.BlockFieldsStandAtTheirOffsets : Prop :=
  ∀ bs : List Byte,
    let at1 (i : Nat) : Nat := (bs.getD i 0).toNat
    let at2 (i : Nat) : Nat := at1 i * 256 + at1 (i + 1)
    let at3 (i : Nat) : Nat := at2 i * 256 + at1 (i + 2)
    let c := (takeSettings bs).value
    let number (i : Nat) : Nat := at1 (35 + 8 * i)
    let roleCode (i : Nat) : Nat := at1 (36 + 8 * i) % 4
    let followCode (i : Nat) : Nat := at1 (36 + 8 * i) / 4 % 4
    let weight (i : Nat) : Int := if at1 (42 + 8 * i) < 128 then (at1 (42 + 8 * i) : Int)
      else (at1 (42 + 8 * i) : Int) - 256
    let changed (old new : Nat) : Nat := if old = new then 0 else 1
    128 ≤ bs.length →
    (c.kind = (if at1 3 = 1 then .laying else if at1 3 = 2 then .netting else .plain)
      ∧ c.forming = decide (at1 4 = 1) ∧ c.stepA = max 50 (min 20000 (at2 5))
      ∧ c.stepB = (if at2 7 = 0 then 0 else max 50 (min 20000 (at2 7)))
      ∧ c.ppr = max 1 (min 64 (at1 9)) ∧ c.smax = max 100 (min 9999 (at2 10))
      ∧ c.ownLimit = max 10 (min 6000 (at2 12)) ∧ c.rampUp = max 1 (min 500 (at2 14))
      ∧ c.rampDown = max 1 (min 500 (at2 16)) ∧ c.stopRamp = max 1 (min 1000 (at2 18))
      ∧ c.pacePeriod = max 1 (min 20 (at1 20)) ∧ c.staleTime = max 3 (min 100 (at1 21))
      ∧ c.dwellTime = max 1 (min 600 (at2 22)) ∧ c.slipSpan = max 1000 (min 20000 (at2 24))
      ∧ c.slipTol = max 5 (min 100 (at1 26)) ∧ c.slipPersist = max 1 (min 8 (at1 27))
      ∧ c.cutterOffset = min 20000 (at2 28)
      ∧ c.retention = min 100000 (at1 30 * 65536 + at2 31)
      ∧ c.burst = max 1 (min 4 (at1 33)) ∧ c.startBank = min 3 (at1 34)) ∧
    ((takeSettings bs).replaced = (if 1 ≤ at1 3 ∧ at1 3 ≤ 3 then 0 else 1) + (if at1 4 ≤ 1 then 0 else 1)
      + changed (at2 5) c.stepA + changed (at2 7) c.stepB + changed (at1 9) c.ppr
      + changed (at2 10) c.smax + changed (at2 12) c.ownLimit + changed (at2 14) c.rampUp
      + changed (at2 16) c.rampDown + changed (at2 18) c.stopRamp + changed (at1 20) c.pacePeriod
      + changed (at1 21) c.staleTime + changed (at2 22) c.dwellTime + changed (at2 24) c.slipSpan
      + changed (at1 26) c.slipTol + changed (at1 27) c.slipPersist + changed (at2 28) c.cutterOffset
      + changed (at3 30) c.retention + changed (at1 33) c.burst + changed (at1 34) c.startBank) ∧
    (blockReplaced bs = (takeSettings bs).replaced
      + ((List.range 6).map (fun i =>
          (if roleCode i = 1 ∨ roleCode i = 2 then 0 else 1)
          + (if followCode i = 1 ∨ followCode i = 2 then 0 else 1)
          + (if 1000 ≤ at2 (37 + 8 * i) ∧ at2 (37 + 8 * i) ≤ 1400 then 0 else 1)
          + (if at3 (39 + 8 * i) ≤ 200000 then 0 else 1)
          + (if -100 ≤ weight i ∧ weight i ≤ 100 then 0 else 1))).sum
      + imageReplaced bs) ∧
    (∀ own : Nat,
      let t := (takeListen own bs).entries
      let entry (i : Nat) : ListenEntry := t.getD i .reset
      let role (i : Nat) : ListenRole := if roleCode i = 1 then .feed else .take
      t.length = 6 ∧ (takeListen own bs).faults = t.countP (fun e => e.status == .ignored) ∧
      (∀ i, i < 6 →
        ((number i = 0 ∨ (roleCode i ≠ 1 ∧ roleCode i ≠ 2)) → entry i = .reset) ∧
        (number i ≠ 0 → (roleCode i = 1 ∨ roleCode i = 2) →
          entry i = { ListenEntry.reset with
            status := if number i = own ∨ 62 < number i
                ∨ (∃ e ∈ t.take i, e.status = .peer ∧ e.number = number i)
                ∨ (if role i = .feed then 4 else 2)
                  ≤ (t.take i).countP (fun e => e.status == .peer && e.role == role i)
              then .ignored else .peer
            number := number i
            role := role i
            takeUp := max 1000 (min 1400 (at2 (37 + 8 * i)))
            path := min 200000 (at3 (39 + 8 * i))
            follow := if followCode i = 2 then .soft else .hard
            weight := max (-100) (min 100 (weight i)) })))

/-- WARM_RESTART acts only once the ANSWER to an accepted RESTART has gone (R158), and before that changes
nothing (log entry 15). It then keeps banks 1 to 3, the package table, the next number, `reports_lost`, the
six line counts and the first error; a CLOSED record whose PKG frame stood in the queue becomes UNSENT;
everything else is as after a reset, and START begins with the straps sampled (R114, R116, R196, R197,
R198). The BRK pin keeps its level (log entry 3); window start, off-run start and S_base, for which no rule
states a value, are 0 (log entry 4). -/
def Obligations.WarmRestartKeepsBanksPackagesAndCounts : Prop :=
  ∀ (s : State) (straps : Straps),
    ((s.station.restartPending && s.station.answerGone) = false →
      exec (.warmRestart straps) s = .next s) ∧
    ((s.station.restartPending && s.station.answerGone) = true →
      ∃ t, exec (.warmRestart straps) s = .next t ∧
        t.start = { StartBlock.reset with phase := .attempting, number := straps.toNat } ∧
        t.station = { Station.reset with brkActive := s.station.brkActive } ∧
        t.length = .reset ∧ t.marks = .reset ∧ t.twist = .reset ∧ t.knot = .reset ∧ t.map = .reset ∧
        t.pace = .reset ∧ t.bank 0 = .reset ∧ (∀ k, 1 ≤ k → t.bank k = s.bank k) ∧
        t.former = { Former.reset with
          nextNumber := s.former.nextNumber, reportsLost := s.former.reportsLost
          table := s.former.table.map (fun r =>
            if r.state = .closed ∧ (s.ply.queue.any (fun f => match f.body with
                | .pkg p => p.number == r.number
                | _ => false)) = true then { r with report := some .unsent } else r) } ∧
        t.ply = { Ply.reset with
          lineErrors := s.ply.lineErrors, numberClash := s.ply.numberClash
          asksDropped := s.ply.asksDropped, collisions := s.ply.collisions
          collisionDrops := s.ply.collisionDrops, queueDrops := s.ply.queueDrops
          firstError := s.ply.firstError })

/-! ## Run position and length metering (chapter 1) -/

/-- A pulse of the active source adds that source's wheel step to the accumulator in READY, RUN, EASING and
STOPPED, up to 4,294,967,295,999, and brings every pending arrival nearer by that step converted by its
feeder's take-up; those at 0 or below have left the list, which stays in order of remaining (R1, R2, R140,
R141, R142). Elsewhere it changes nothing; the configuration, the listen table and the waiting commands stand
as they were. -/
def Obligations.ActivePulseAdvancesThePosition : Prop :=
  ∀ s : State, ∃ t, exec .activeSourcePulse s = .next t ∧
    t.length.acc = (if s.inRun = true then accAfterPulse s else s.length.acc) ∧
    (s.inRun = true →
      t.pace.arrivals.Perm ((s.pace.arrivals.map (nearer s)).filter (fun a => decide (0 < a.remaining))) ∧
      t.pace.arrivals.Pairwise (fun a b =>
        a.remaining < b.remaining ∨ (a.remaining = b.remaining ∧ a.accepted ≤ b.accepted))) ∧
    t.start = s.start ∧ t.pace.listen = s.pace.listen ∧ t.pending = s.pending ∧
    (s.inRun = false → t = s)

/-- The whole effect of a pulse on a quiet station that does not cross 4,000,000,000 mm: the position, and
in RUN the end of a dwell with the countdown loaded (R1, R9, R11, R61). On a PLAIN station that forms no
packages, marks and map take the pulse as well: the mark is tested against the position (R12, R13, R14), and
closed entries further behind than the retention distance leave, none at a saturated position (R82; which
position that is, is log entry 55). A single pending arrival then comes nearer or, at 0 or below, is
inserted at the position with its extent converted and handed off, or refused and counted when it comes from
this station (R74, R141, R142). That an arrival finds the places which retention freed at the same pulse is
the model's order of the blocks (log entry 9); the levels at which a mark leaves MKC and MKD are log entry
47's. -/
def Obligations.ActivePulseOnAQuietOrPlainStation : Prop :=
  ∀ s : State, s.inRun = true → withinRunLimit s →
    let moved := movedByPulse s
    let now := accAfterPulse s / 1000
    let kept := keptByPulse s
    let measured := { moved with marks := marksAt now s.marks, map := { s.map with entries := kept } }
    (Quiet s → exec .activeSourcePulse s = .next moved) ∧
    (Plain s → s.pace.arrivals = [] → exec .activeSourcePulse s = .next measured) ∧
    (∀ a, Plain s → s.pace.arrivals = [a] →
      (0 < (nearer s a).remaining → exec .activeSourcePulse s = .next { measured with
        pace := { s.pace with arrivals := [nearer s a] } }) ∧
      ((nearer s a).remaining ≤ 0 → a.origin = s.own → exec .activeSourcePulse s = .next { measured with
        pace := { s.pace with arrivals := [] }
        map := { s.map with entries := kept, dropped := min 65535 (s.map.dropped + 1) } }) ∧
      ((nearer s a).remaining ≤ 0 → a.origin ≠ s.own → kept.length < 64 →
        exec .activeSourcePulse s = .next (handOff (arrivedEntry now s a) { measured with
          pace := { s.pace with arrivals := [] }
          map := { s.map with entries := insertEntry (arrivedEntry now s a) kept } })))

/-- The pulse that carries the position to 4,000,000,000 mm raises RUN_LIMIT (R2): the cause is taken, ALM
goes on, RUN eases and READY stops (R153, R160, R164), and a HALT at SOFT with this station's number is
queued unless the station stands STOPPED (R169). Any SOFT local cause raised while a run exists does the same,
PACKAGE_DOFF among them; one held already, or raised without a run, does nothing (R161, R163). -/
def Obligations.CrossingTheRunLimitRaisesRunLimit : Prop :=
  (∀ s : State, Quiet s → StationLawful s → s.inRun = true → s.pos < 4000000000 →
    4000000000 ≤ accAfterPulse s / 1000 → LocalCause.runLimit ∉ s.station.locals →
    s.ply.queue.length < s.ply.room →
    ∃ t, exec .activeSourcePulse s = .next t ∧ t.length.acc = accAfterPulse s ∧
      t.station.locals = s.station.locals ++ [.runLimit] ∧ t.station.peers = s.station.peers ∧
      t.station.alm = true ∧
      t.station.state = (match s.station.state with
        | .run => .easing
        | .ready => .stopped
        | other => other) ∧
      t.ply.queue = (if s.station.state = .stopped then s.ply.queue
        else s.ply.queue ++ [fresh (.halt s.own .soft)]) ∧
      t.map = s.map ∧ t.former = s.former ∧ t.banks = s.banks ∧ t.twist = s.twist) ∧
  ∀ (s : State) (c : LocalCause), c ≠ .brk → c ≠ .localStop → StationLawful s →
    (s.inRun = false ∨ c ∈ s.station.locals → raiseSoft c s = s) ∧
    (s.inRun = true → c ∉ s.station.locals → s.ply.queue.length < s.ply.room →
      let t := raiseSoft c s
      t.station.locals = s.station.locals ++ [c] ∧ t.station.peers = s.station.peers ∧ t.station.alm = true ∧
      (s.station.setEmpty = true → t.station.firstCause = some ⟨.loc c, s.own⟩) ∧
      (s.station.setEmpty = false → t.station.firstCause = s.station.firstCause) ∧
      t.station.state = (match s.station.state with
        | .run => .easing
        | .ready => .stopped
        | other => other) ∧
      t.ply.queue = (if s.station.state = .stopped then s.ply.queue
        else s.ply.queue ++ [fresh (.halt s.own .soft)]) ∧
      t.length.acc = s.length.acc ∧ t.map = s.map ∧ t.former = s.former ∧ t.banks = s.banks ∧
      t.twist = s.twist ∧ t.marks = s.marks)

/-- A pulse of the active source on a PLAIN station that forms no packages, with no arrival on its way, adds
its step to that source's span accumulator, and closes the span when that reaches the slip span (R4, R5). At
the close, on any station, last slip is the truncated permille difference, both accumulators start again, and
the bad span count follows the limit of the mode (R5). In A mode the slip persistence switches the source to
B with the degraded flag and writes a SLIP entry at the run position, handed off, or counted as dropped by a
full map (R6, R76); in B mode it raises SLIP_LOST and starts the count again (R8). The pulse moves marks and
map as on any such station, by the readings of log entries 47 (MKC and MKD) and 55 (retention at the top). -/
def Obligations.SpanCloseStoresTheSlipAndSwitchesTheSource : Prop :=
  ∀ s : State,
    let slip := (max s.length.la s.length.lb - min s.length.la s.length.lb) * 1000
      / max s.length.la s.length.lb
    let bad := match s.length.source with
      | .a => decide (s.cfg.slipTol < slip)
      | .b => decide (2 * s.cfg.slipTol < slip)
    let next := { s.length with lastSlip := slip, la := 0, lb := 0 }
    let switched := { next with badSpans := 0, source := .b, switched := true, degraded := true }
    let entry := { closedPoint .slip s.pos with lastLocal := false }
    (s.cfg.kind = .plain → s.cfg.forming = false → s.cfg.stepB ≠ 0 → s.pace.arrivals = [] →
      s.inRun = true → withinRunLimit s →
      let moved := movedByPulse s
      let la := if s.length.source = .a then s.length.la + s.cfg.stepA else s.length.la
      let lb := if s.length.source = .b then s.length.lb + s.cfg.stepB else s.length.lb
      let grown := { moved with
        length := { moved.length with la := la, lb := lb }
        marks := marksAt (accAfterPulse s / 1000) s.marks
        map := { s.map with entries := keptByPulse s } }
      exec .activeSourcePulse s = .next (if s.cfg.slipSpan * 1000 ≤ (if s.length.source = .a then la else lb)
        then closeSpan grown else grown)) ∧
    (bad = false → closeSpan s = { s with length := { next with badSpans := 0 } }) ∧
    (bad = true → s.length.badSpans + 1 < s.cfg.slipPersist →
      closeSpan s = { s with length := { next with badSpans := s.length.badSpans + 1 } }) ∧
    (bad = true → s.cfg.slipPersist ≤ s.length.badSpans + 1 → s.length.source = .a →
      (s.map.entries.length < 64 → closeSpan s = handOff entry { s with
        length := switched, map := { s.map with entries := insertEntry entry s.map.entries } }) ∧
      (64 ≤ s.map.entries.length → closeSpan s = { s with
        length := switched, map := { s.map with dropped := min 65535 (s.map.dropped + 1) } })) ∧
    (bad = true → s.cfg.slipPersist ≤ s.length.badSpans + 1 → s.length.source = .b → s.inRun = true →
      let t := closeSpan s
      .slipLost ∈ t.station.locals ∧ t.length.badSpans = 0 ∧ t.length.la = 0 ∧ t.length.lb = 0 ∧
        t.length.lastSlip = slip ∧ t.length.source = .b ∧ t.map = s.map)

/-! ## Twist regulation and inspection (chapters 2 and 3) -/

/-- The inputs that are only counted. A pulse of the non-active source adds its step to that source's span
accumulator, while pulses are counted, the station is not dwelling and wheel step B is not 0 (R4); a
spindle pulse is counted in an open window and a section edge in an open row, each while the station is not
dwelling and for an enabled input, up to the top of its counter (R23, R49). That the n of the new bank holds
from a bank switch inside a row on, not from the close of that row, is the model's choice (log entry 61). -/
def Obligations.CheckPulsesSpindlePulsesAndSectionEdgesAreCounted : Prop :=
  ∀ (s : State) (i : Fin 8),
    (exec .nonActiveSourcePulse s =
      .next (if s.inRun = true ∧ s.length.dwelling = false ∧ s.cfg.stepB ≠ 0 then
        { s with length := match s.length.source with
            | .a => { s.length with lb := s.length.lb + s.cfg.stepB }
            | .b => { s.length with la := s.length.la + s.cfg.stepA } }
        else s)) ∧
    (exec .spindlePulse s =
      .next (if s.cfg.kind = .laying ∧ s.twist.windowOpen = true ∧ s.length.dwelling = false then
        { s with twist := { s.twist with pulses := min 4294967295 (s.twist.pulses + 1) } } else s)) ∧
    (exec (.sectionEdge i) s =
      .next (if s.cfg.kind = .netting ∧ s.knot.rowOpen = true ∧ s.length.dwelling = false
          ∧ i.val < s.knotPage.sections then
        { s with knot := { s.knot with
            counters := s.knot.counters.set i.val (min 65535 (s.knot.counters[i.val] + 1)) } } else s))

/-- T10 is P times 10,000,000 over ppr times W rounded half up, clamped to 65,535 (R25): below the clamp it
is within half a unit of the exact quotient, a tie going up. -/
def Obligations.MeasuredTwistIsRoundedHalfUp : Prop :=
  ∀ ppr p w : Nat, 0 < ppr → 0 < w →
    measureT10 ppr p w ≤ 65535 ∧
    (measureT10 ppr p w < 65535 →
      2 * ppr * w * measureT10 ppr p w ≤ 2 * p * 10000000 + ppr * w ∧
      2 * p * 10000000 < 2 * ppr * w * measureT10 ppr p w + ppr * w) ∧
    (measureT10 ppr p w = 65535 → 2 * 65535 * ppr * w ≤ 2 * p * 10000000 + ppr * w)

/-- The class of a closed window follows from the magnitude of E; with tolX equal to tolM no window is MINOR,
and a window with P = 0 has E −999 and is MAJOR under every tolX the recipe admits (R27). -/
def Obligations.WindowClassFollowsTheMagnitudeOfE : Prop :=
  ∀ (tolM tolX : Nat) (e : Int),
    (e.natAbs ≤ tolM → classify tolM tolX e = .inTol) ∧
    (tolM < e.natAbs → e.natAbs ≤ tolX → classify tolM tolX e = .minor) ∧
    (tolM < e.natAbs → tolX < e.natAbs → classify tolM tolX e = .major) ∧
    (tolM = tolX → classify tolM tolX e ≠ .minor) ∧
    (∀ ppr w eff : Nat, 0 < ppr → 0 < w → 0 < eff → tolM ≤ tolX → tolX ≤ 400 →
      (measureT10 ppr 0 w : Int) - eff = -eff ∧
      deviationE ((measureT10 ppr 0 w : Int) - eff) eff = -999 ∧
      classify tolM tolX (deviationE ((measureT10 ppr 0 w : Int) - eff) eff) = .major)

/-- A pulse of the active source on a LAYING station that forms no packages and has no check source, with no
arrival on its way, adds its step to the open window, which closes when it holds Lw (R24); the close knows
whether the pulse was taken in RUN (R33; log entry 9). At the close of a window with no bank staged the
results are stored, trim takes its step in RUN, the balance of the feeders (R35, R36) and the own offer
follow, and the next window opens at the run position (R24, R28, R33, R37, R40). An IN close ends the non-IN
run and closes and hands off an open TWIST
entry; with none open nothing else changes (R31). A MINOR or MAJOR close extends the run, and the TWIST
entry is extended, or opened from the run's start once the run has reached the persistence (R29, R30); a
major run of that length raises TWIST_LIMIT, which eases a running station (R32). A STAGED bank takes effect at
the close, after the window has been evaluated in full under the old bank (R123, R124). Marks and map take the
pulse by the readings of log entries 47 (MKC and MKD) and 55 (retention at the top). -/
def Obligations.WindowClosingInToleranceStoresAndTrims : Prop :=
  (∀ s : State, s.cfg.kind = .laying → s.cfg.forming = false → s.cfg.stepB = 0 → s.pace.arrivals = [] →
    s.inRun = true → withinRunLimit s →
    let width := s.twist.width + s.activeStep
    let moved := { movedByPulse s with map := { s.map with entries := keptByPulse s } }
    let grown := { moved with twist := { s.twist with width := width } }
    let t := if s.twist.windowOpen = false then moved
      else if width < s.twistPage.lw * 1000 then grown
      else closeWindow (decide (s.station.state = .run)) grown
    exec .activeSourcePulse s = .next { t with marks := marksAt t.pos t.marks }) ∧
  (∀ (s : State) (k : Nat) (ran : Bool), s.cfg.kind = .laying → s.cfg.forming = false → BankLawful s →
    s.stagedBank = some k → closeWindow ran s = (switchBank k s.pos (closeWindow ran (unstaged s))).1) ∧
  ∀ (s : State) (eff : Nat) (ran : Bool), s.cfg.kind = .laying → s.cfg.forming = false →
    s.stagedBank = none → s.twist.eff10 = some eff →
    let t10 := measureT10 s.cfg.ppr s.twist.pulses s.twist.width
    let d10 : Int := (t10 : Int) - eff
    let e := max (-999) (min 999 ((d10 * 1000).tdiv eff))
    let trim := if ran then max (-200) (min 200 (s.twist.trim - (e * s.twistPage.gain).tdiv 16))
      else s.twist.trim
    let aim := aimOf s.twistPage.target10 s
    let persistence := s.twistPage.persistence
    let major := decide (s.twistPage.tolX < e.natAbs)
    let run := min 255 (s.twist.offRun + 1)
    let start := if s.twist.offRun = 0 then s.twist.windowStart else s.twist.offStart
    let offMajor := major || (decide (s.twist.offRun ≠ 0) && s.twist.offMajor)
    let majorRun := if major then min 255 (s.twist.majorRun + 1) else 0
    let stored (c : WindowClass) : Twist := { s.twist with
      lastT10 := some t10, lastD10 := d10, lastE := some e, lastClass := some c
      windowCount := min 65535 (s.twist.windowCount + 1)
      trim, eff10 := some aim
      ownOffer := min s.cfg.ownLimit (s.cfg.smax * 100000 / (aim * (1000 + trim).toNat))
      windowOpen := true, pulses := 0, width := 0, windowStart := s.pos }
    let settled := { stored .inTol with offRun := 0, offMajor := false, majorRun := 0 }
    let extended := { stored (if major then .major else .minor) with
      offRun := run, offStart := start, offMajor := offMajor, majorRun := majorRun }
    let logged := runLogged .twist true major offMajor start run run persistence s.pos s.map.entries
    (e.natAbs ≤ s.twistPage.tolM → s.openEntry .twist = none →
      closeWindow ran s = { s with twist := settled }) ∧
    (∀ x, e.natAbs ≤ s.twistPage.tolM → s.openEntry .twist = some x →
      closeWindow ran s = handOff { x with isOpen := false, forwarded := true } { s with
        twist := settled
        map := { s.map with
          entries := runLogged .twist false false false 0 0 0 0 s.pos s.map.entries } }) ∧
    (s.twistPage.tolM < e.natAbs → s.map.entries.length < 64 →
      (major = false ∨ majorRun < persistence →
        closeWindow ran s = { s with twist := extended, map := { s.map with entries := logged } }) ∧
      (major = true → persistence ≤ majorRun → s.inRun = true →
        let t := closeWindow ran s
        .twistLimit ∈ t.station.locals ∧ t.twist = extended ∧ t.map = { s.map with entries := logged } ∧
        (s.station.state = .run → s.station.hardHeld = false → .twistLimit ∉ s.station.locals →
          t.station.state = .easing ∧ t.station.alm = true)))

/-- A row is knot-flagged when one enabled section (ANY) or every enabled section (ALL) misses at least the
threshold, the two modes agreeing for one section; its total missing is the sum over the enabled sections,
at most 2,000; and it is a major row when it is flagged and the total reaches the major row total (R52). -/
def Obligations.RowFlagFollowsTheModeAndTheMissingCounts : Prop :=
  ∀ (page : KnotPage) (k : Knot) (pos : Nat),
    let short (i : Fin 8) : Nat := page.expected - k.counters[i.val]
    let r := rowResult page k pos
    r.missing = (Finset.univ.filter (fun i : Fin 8 => i.val < page.sections)).sum short ∧
    (page.mode = .any → (r.knotFlag = true ↔ ∃ i : Fin 8, i.val < page.sections ∧
      page.threshold ≤ short i)) ∧
    (page.mode = .all → (r.knotFlag = true ↔ ∀ i : Fin 8, i.val < page.sections →
      page.threshold ≤ short i)) ∧
    (r.major = true ↔ r.knotFlag = true ∧ page.majorRow ≤ r.missing) ∧
    (page.expected ≤ 250 → r.missing ≤ 2000) ∧
    (page.sections = 1 → (rowResult { page with mode := .any } k pos).knotFlag
      = (rowResult { page with mode := .all } k pos).knotFlag)

/-- A row stroke in RUN or EASING on a NETTING station with a row open and not dwelling closes the row:
over-counts, references, results and statistics are stored, the knot run follows the flag, and the next row
opens at the run position with its counters at 0 (R48, R50, R51, R53 to R57, R63). The mesh deviation is
formed against the first reference, or the previous advance, and flagged above the mesh tolerance; a row that
gives the first reference has deviation 0 and no flag, and a reference of 0 gives 65,535 and the flag (R54 to
R56). With no bank staged nothing else touches this state. On a station that forms no packages, with two
places free in the map, the KNOT entry follows the knot run and the MESH entry the mesh run, each opened at D
rows, extended, and closed by a row that ends it (R57, R58, R59); and a knot run of at least D and the run
limit raises KNOT_RUN (R60). A STAGED bank takes effect at the close there, after the row has been evaluated in
full under the old bank (R123, R124). Elsewhere the stroke changes nothing. -/
def Obligations.RowStrokeClosesTheOpenRow : Prop :=
  ∀ s : State,
    let closing := s.cfg.kind = .netting ∧ s.station.state.driven = true ∧ s.knot.rowOpen = true
      ∧ s.length.dwelling = false
    let r := rowResult s.knotPage s.knot s.pos
    let off (a reference : Nat) : Nat := (max a reference - min a reference) * 1000 / reference
    let d := s.knotPage.duration
    let knotRun := min 65535 (s.knot.knotRun + 1)
    let meshRun := min 255 (s.knot.meshRun + 1)
    let knotStart := if s.knot.knotRun = 0 then s.knot.rowStart else s.knot.knotStart
    let meshStart := if s.knot.meshRun = 0 then s.knot.rowStart else s.knot.meshStart
    let runMajor := r.major || (decide (s.knot.knotRun ≠ 0) && s.knot.knotMajor)
    let knotted := runLogged .knot r.knotFlag r.major runMajor knotStart (min 255 knotRun) knotRun d s.pos
      s.map.entries
    let meshed := runLogged .mesh r.meshFlag false false meshStart meshRun meshRun d s.pos knotted
    let limited := r.knotFlag = true ∧ d ≤ knotRun ∧ s.knotPage.runLimit ≤ knotRun
    (¬ closing → exec .rowStroke s = .next s) ∧
    (∀ k, closing → s.cfg.forming = false → BankLawful s → s.stagedBank = some k →
      ∃ u, exec .rowStroke (unstaged s) = .next u ∧ exec .rowStroke s = .next (switchBank k s.pos u).1) ∧
    (r.advance = none → r.deviation = none ∧ r.meshFlag = false) ∧
    (∀ a, r.advance = some a →
      (s.knotPage.meshRef = .first → s.knot.firstRef = none → r.deviation = some 0 ∧ r.meshFlag = false) ∧
      (s.knotPage.meshRef = .prev → s.knot.prevAdvance = none → r.deviation = none ∧ r.meshFlag = false) ∧
      (∀ f, (match s.knotPage.meshRef with
          | .first => s.knot.firstRef
          | .prev => s.knot.prevAdvance) = some f →
        (f = 0 → r.deviation = some 65535 ∧ r.meshFlag = true) ∧
        (0 < f → r.deviation = some (min 65535 (off a f))
          ∧ (r.meshFlag = true ↔ s.knotPage.meshTol < off a f)))) ∧
    (closing → s.stagedBank = none → ∃ t, exec .rowStroke s = .next t ∧
      t.knot.last = r ∧ r.advance = s.knot.prevClose.map (fun c => s.pos - c) ∧
      t.knot.prevAdvance = r.advance ∧
      (∀ f, s.knot.firstRef = some f → t.knot.firstRef = some f) ∧
      (s.knot.firstRef = none → t.knot.firstRef = r.advance) ∧
      (∀ i : Fin 8, t.knot.overcount[i.val] = (if i.val < s.knotPage.sections
        then min 65535 (s.knot.overcount[i.val] + (s.knot.counters[i.val] - s.knotPage.expected))
        else s.knot.overcount[i.val])) ∧
      t.knot.rowsClosed = min 65535 (s.knot.rowsClosed + 1) ∧
      t.knot.knotRows = (if r.knotFlag then min 65535 (s.knot.knotRows + 1) else s.knot.knotRows) ∧
      t.knot.meshRows = (if r.meshFlag then min 65535 (s.knot.meshRows + 1) else s.knot.meshRows) ∧
      t.knot.knotRun = (if r.knotFlag then knotRun else 0) ∧
      t.knot.meshRun = (if r.meshFlag then meshRun else 0) ∧
      (r.knotFlag = true → t.knot.knotStart = knotStart ∧ t.knot.knotMajor = runMajor) ∧
      (r.meshFlag = true → t.knot.meshStart = meshStart) ∧
      t.knot.rowOpen = true ∧ t.knot.rowStart = s.pos ∧ t.knot.prevClose = some s.pos ∧
      t.knot.counters = Vector.replicate 8 0 ∧
      t.length = s.length ∧ t.start = s.start ∧ t.twist = s.twist ∧
      (s.cfg.forming = false → s.map.entries.length + 2 ≤ 64 →
        t.map = { s.map with entries := meshed } ∧
        (¬ limited → t.station.locals = s.station.locals ∧ t.station.state = s.station.state) ∧
        (limited → t.station.locals = (if .knotRun ∈ s.station.locals then s.station.locals
            else s.station.locals ++ [.knotRun]) ∧
          (.knotRun ∉ s.station.locals → s.station.state = .run → s.station.hardHeld = false →
            t.station.state = .easing ∧ t.station.alm = true))))

/-- A record closed at `k` takes what stands below `k`: a JOIN that ends at or below it is a join (log entry
51), everything else an item of its severity, by offset and extent, up to 8 (R107; order, log entry 30). It is
SCRAP by its type, SECOND with a MAJOR item, more MINOR
items than the allowance (CHANGE not counted, log entry 50), more joins than max joins or a length below min,
else FIRST (R106, R107, R109). A cut is placed by position, firm when X past it is reached, fires at once when
its fire point is, or is counted as refused by a full list (R94, R95, R104; log entry 27). A pulse makes cuts
firm, fires those at their fire points in list order, stated of its first and second fire, and plans at start +
target when the plan point is reached with no blocker there (R96, R97, R98); then the mark is tested (log entries
31, 47). A cut-out whose C1 falls to a pending SCRAP_END merges with it, the first that fits; without room,
counted for both cuts where C1 fires at once too (log entry 24), the last SCRAP_END is extended, and with none it
is refused and counted (R104; log entries 6, 25). Else it discards the PACKAGE_ENDs above C1 and places its pair,
C1 firing at once behind the cutter, or makes the open package SCRAP when it reaches back over its start (R101,
R102; waiting by log entry 48). The close of its entry releases its waiting SCRAP_END (R103; of two waiting, log
entry 7), standing among equals as it was placed (R94). A fire drives CUT high, tests the closing package's
mark, closes the record, its PKG queued behind those of UNSENT records, carries the other cuts over as they stand,
switches to a STAGED bank and opens the next package in a table of 16 at most, restarts the marks and raises a
doff where asked; at or below the package's start it only sets the type again (R15, R91, R92, R93, R108, R110,
R122). -/
def Obligations.ClosedPackageIsGradedByWhatItTook : Prop :=
  (∀ (page : PackagePage) (k : Nat) (reason : CloseReason) (entries : List MapEntry) (r : PackageRecord),
    let below := entries.filter (fun e => decide (e.position < k))
    let isJoin (e : MapEntry) : Bool := e.kind == .join && decide (e.position + e.extent ≤ k)
    let items := below.filter (fun e => !isJoin e)
    let joins := min 255 (below.countP isJoin)
    let closed := r.close page k reason entries
    closed.endPos = some k ∧ closed.state = .closed ∧ closed.reason = some reason ∧
    closed.number = r.number ∧ closed.type = r.type ∧ closed.startPos = r.startPos ∧
    closed.joinCount = joins ∧ closed.joins.length = min 4 (below.countP isJoin) ∧
    closed.joins = ((below.filter isJoin).map (fun e => e.position - r.startPos)).take 4 ∧
    closed.defects.length = min 8 items.length ∧
    closed.defects = keptItems (itemsAt r.startPos k items) ∧
    closed.defectsDropped = min 255 (items.length - 8) ∧
    closed.grade = some (if r.type = .scrap then .scrap
      else if items.any (fun e => e.severity == .major && e.kind != .change) = true
        ∨ page.minorAllowance < items.countP (fun e => e.severity == .minor && e.kind != .change)
        ∨ page.maxJoins < joins ∨ k - r.startPos < page.target * page.minimum / 1000
      then .second else .first)) ∧
  (∀ s : State, s.cfg.kind = .plain → s.cfg.forming = true → s.cfg.stepB = 0 → s.pace.arrivals = [] →
    s.inRun = true → withinRunLimit s →
    let t := formerPulse (movedByPulse s)
    exec .activeSourcePulse s = .next (match t.openPackage with
      | some q => { t with marks := marksAt (t.pos - t.cfg.cutterOffset - q.startPos) t.marks }
      | none => t)) ∧
  (∀ (s : State) (p : PackageRecord), s.openPackage = some p →
    let page := s.packagePage p.bank
    let x := min page.margin s.cfg.cutterOffset
    let withCuts (cuts : List Cut) : State := { s with former := { s.former with cuts := cuts } }
    let retyped (type : PackageType) (cuts : List Cut) : State := { s with former := { s.former with
      table := s.former.table.map (fun r => if r.state = .opened then { r with type := type } else r)
      cuts := cuts } }
    let refused := { s with former := { s.former with cutsRefused := min 65535 (s.former.cutsRefused + 1) } }
    let typeBy (cuts : List Cut) (extra : Nat) : PackageType :=
      if cuts.countP (fun q => q.purpose == .scrapStart) < cuts.countP (fun q => q.purpose == .scrapEnd) + extra
      then .scrap else .normal
    let noEnds := s.former.cuts.filter (fun q => decide (q.purpose ≠ .packageEnd))
    (∀ (c : Cut) (extra : Nat),
      (ahead s c → placeCut fire c extra s = (if s.former.cuts.length < 6 then
        withCuts (cutPlaced (firmed x s.pos c) s.former.cuts) else refused)) ∧
      (¬ ahead s c → placeCut fire c extra s = fire c (s.pos - s.cfg.cutterOffset) extra s)) ∧
    (s.cfg.forming = true →
      let firm := s.former.cuts.map (firmed x s.pos)
      ((∀ c ∈ s.former.cuts, ahead s c) →
        (¬ planDue s p.type p.startPos page s.former.cuts → formerPulse s = withCuts firm) ∧
        (planDue s p.type p.startPos page s.former.cuts →
          s.pos < p.startPos + page.target + s.cfg.cutterOffset →
          freeAt x s.map.entries (p.startPos + page.target) →
          formerPulse s = withCuts (cutPlaced (firmed x s.pos
            (cutAt (p.startPos + page.target) .packageEnd (some .length) none)) firm))) ∧
      (∀ pre c post, firm = pre ++ c :: post → (∀ q ∈ pre, ahead s q) → ¬ ahead s c →
        let one := fire c c.position 0 (withCuts (pre ++ post))
        (formerDone one → formerPulse s = one) ∧
        (∀ pre2 d post2, pre ++ post ≠ [] → one.former.cuts = pre2 ++ d :: post2 → (∀ q ∈ pre2, ahead one q) →
          ¬ ahead one d →
          let two := fire d d.position 0 { one with former := { one.former with cuts := pre2 ++ post2 } }
          formerDone two → formerPulse s = two))) ∧
    (∀ (e : MapEntry) (dropPlan : Bool), s.former.cuts.length ≤ 6 →
      let c1 : Int := (e.position : Int) - x
      let c2 := e.position + e.extent + x
      let waits (u : State) : Bool := e.isOpen && u.map.entries.any (fun m => m.isOpen && m.kind == e.kind)
      let fits (c : Cut) : Prop := c.purpose = .scrapEnd ∧ ((c.pairStart.getD 0 : Nat) : Int) ≤ c1
        ∧ c1 ≤ (c.position + 2 * x : Nat)
      let beyond : Prop := (p.startPos : Int) < c1
      let discarded (c : Cut) : Bool := c.purpose == .packageEnd
        && (decide (c1 ≤ p.startPos) || decide (c1 < c.position))
      let room : Prop := s.former.cuts.length + (if beyond then 2 else 1)
        ≤ 6 + s.former.cuts.countP discarded
      let moved (pre : List Cut) (c : Cut) (post : List Cut) : State := withCuts (cutMoved
        (firmed x s.pos { raisedTo c2 c with waiting := c.waiting || waits s }) (pre ++ post))
      let last (u : State) (pair : Nat) : Cut := { cutAt c2 .scrapEnd none (some pair) with waiting := waits u }
      (∀ pre c post, s.former.cuts = pre ++ c :: post → (∀ q ∈ pre, ¬ fits q) → fits c →
        cutOut fire e dropPlan s = (moved pre c post, false)) ∧
      ((∀ q ∈ s.former.cuts, ¬ fits q) → ¬ room →
        (∀ pre c post, s.former.cuts = pre ++ c :: post → c.purpose = .scrapEnd →
          (∀ q ∈ post, q.purpose ≠ .scrapEnd) → cutOut fire e dropPlan s = (moved pre c post, false)) ∧
        ((∀ q ∈ s.former.cuts, q.purpose ≠ .scrapEnd) → cutOut fire e dropPlan s = (refused, false))) ∧
      ((∀ q ∈ s.former.cuts, ¬ fits q) → room → beyond →
        let kept := s.former.cuts.filter (fun c =>
          !discarded c && !(dropPlan && c.purpose == .packageEnd && c.plan == some .length))
        let first := cutAt c1.toNat .scrapStart none none
        let started := fire first (s.pos - s.cfg.cutterOffset) 1 (withCuts kept)
        cutOut fire e dropPlan s = (if s.pos < c1.toNat + s.cfg.cutterOffset then
            withCuts (cutPlaced (firmed x s.pos (last s c1.toNat)) (cutPlaced (firmed x s.pos first) kept))
          else placeCut fire (last started c1.toNat) 0 started, true)) ∧
      ((∀ q ∈ s.former.cuts, ¬ fits q) → room → ¬ beyond →
        (ahead s (last s p.startPos) → cutOut fire e dropPlan s = (retyped (typeBy noEnds 1)
          (cutPlaced (firmed x s.pos (last s p.startPos)) noEnds), true)) ∧
        (¬ ahead s (last s p.startPos) → cutOut fire e dropPlan s = (fire (last s p.startPos)
          (s.pos - s.cfg.cutterOffset) 0 (retyped (typeBy noEnds 1) noEnds), true)))) ∧
    (∀ e : MapEntry, s.cfg.forming = true →
      entryUpgraded fire e s
        = checkPlan fire (if page.cutOutMajor = true then (cutOut fire e false s).1 else s) ∧
      (e.severity = .minor → entryClosed fire s e = s) ∧
      (e.severity = .major → (∀ q ∈ s.former.cuts, q.waiting = false) →
        entryClosed fire s e = checkPlan fire s) ∧
      (∀ pre c post, e.severity = .major → s.former.cuts = pre ++ c :: post →
        (∀ q ∈ post, q.waiting = false) → c.waiting = true →
        let freed := firmed x s.pos { raisedTo (e.position + e.extent + x) c with waiting := false }
        entryClosed fire s e = checkPlan fire (if s.pos < freed.position + s.cfg.cutterOffset then
          withCuts (cutMoved freed (pre ++ post))
          else fire freed (s.pos - s.cfg.cutterOffset) 0 (withCuts (pre ++ post))))) ∧
    (∀ (c : Cut) (k : Nat), k ≤ p.startPos →
      let type := typeBy s.former.cuts 0
      (type = p.type → fire c k 0 s = s) ∧
      (type ≠ p.type → type = .scrap → fire c k 0 s = retyped .scrap noEnds) ∧
      (type ≠ p.type → type = .normal → ¬ planDue s .normal p.startPos page s.former.cuts →
        fire c k 0 s = retyped .normal s.former.cuts)) ∧
    (∀ (c : Cut) (k b : Nat), p.startPos < k →
      (∀ j, s.stagedBank = some j → BankLawful s ∧ ∀ e ∈ s.map.entries, e.isOpen = false) →
      (s.stagedBank.or s.activeBank) = some b →
      let unsent := unsentOf s.former.table
      s.ply.queue.length + unsent.length < s.ply.room →
      let type := typeBy noEnds 0
      ¬ planDue s type k (s.packagePage b) noEnds →
      let reason : CloseReason := match c.purpose, c.plan with
        | .packageEnd, some .joinLimit => .joinLimit
        | .packageEnd, _ => .length
        | .change, _ => .change
        | _, _ => .cutOut
      let closed := p.close page k reason s.map.entries
      let straddle := s.map.entries.filter (fun e =>
        decide (e.position < k) && decide (k < e.position + e.extent))
      let taken : State := { s with
        former := { s.former with
          cutHigh := true, cuts := noEnds
          table := s.former.table.map (fun r => if r.state = .opened then closed
            else if r.state = .closed ∧ (r.number = p.number ∨ ∃ u ∈ unsent, u.number = r.number) then
              { r with report := some .queued }
            else r) }
        map := { s.map with
          entries := straddle.map (fun e => { e with position := k, extent := e.position + e.extent - k })
            ++ s.map.entries.filter (fun e => decide (k ≤ e.position)) }
        marks := marksAt (k - p.startPos) s.marks
        ply := { s.ply with queue := s.ply.queue ++ unsent.map pkgFrame ++ [pkgFrame closed] } }
      let switched := match s.stagedBank with
        | some j => (switchBank j k taken).1
        | none => taken
      let room := roomMade switched.former
      let next : State := { switched with
        former := { room with
          nextNumber := if s.former.nextNumber < 65535 then s.former.nextNumber + 1 else 1
          table := room.table ++ [{
            number := s.former.nextNumber, type := type, bank := b
            productCode := (s.packagePage b).productCode, startPos := k, endPos := none, joinCount := 0
            joins := [], defects := [], defectsDropped := 0, grade := none, reason := none
            state := .opened, report := none }] }
        marks := marksFrom (s.packagePage b).markInterval switched.marks }
      fire c k 0 s = if page.haltAtClose = true then raiseSoft .packageDoff next else next))

/-! ## Operator inputs (chapters 4 and 8) -/

/-- A JNI edge while no run exists changes nothing; within 200 mm of the last local JOIN it raises that
entry's count alone; otherwise, with room in the map, a JOIN stands at the run position as the last local
JOIN and is handed off, and a forming station hands it to the package former (R68, R71, R72, R79, R84). A full
map gives up its first evictable entry for the JOIN, counted in `map_evicted`; with none evictable the JOIN is
refused, counted in `map_dropped`, and MAP_FULL is raised (R77). An entry taken in stands after every
entry at or below its position and before every one above it (R68). Any other offer fares likewise: MINOR and
neither JOIN nor CHANGE, it is refused by a full map and counted (R76), and otherwise it evicts (R77). At the
former a JOIN that finds max joins others ends the package X before it, or is cut out where that is too short,
with no check of the plan after it (log entry 28) and by its extent where it has one (log entry 51); any other is
weighed against the plan (R100). A plan in the list that is not firm and whose window meets a
blocker is resolved from start + target: it moves to the greatest free position at or below that leaves min
and lies ahead of the cutter, else to the least free one at or above within max, else its lowest blocker is
cut out (R98, R99; the first in map order of equals, log entry 57; its place among equals, log entry 59). -/
def Obligations.JniEdgeMergesOrInsertsAJoin : Prop :=
  ∀ s : State,
    let evictable (e : MapEntry) : Bool :=
      !e.isOpen && e.severity == .minor && e.kind != .join && e.kind != .change
    let forgotten := List.map (fun e : MapEntry =>
      if e.lastLocal && e.kind == .join then { e with lastLocal := false } else e)
    let handed (logged : State) : State :=
      if s.cfg.forming then entryInserted fire (closedPoint .join s.pos) logged else logged
    let refused := { s with map := { s.map with dropped := min 65535 (s.map.dropped + 1) } }
    (∀ (e : MapEntry) (l : List MapEntry),
      insertEntry e l = l.takeWhile (fun x => decide (x.position ≤ e.position)) ++ e
        :: l.dropWhile (fun x => decide (x.position ≤ e.position)) ∧
      ((l.map (fun x => x.position)).Pairwise (· ≤ ·) →
        insertEntry e l = l.filter (fun x => decide (x.position ≤ e.position)) ++ e
          :: l.filter (fun x => decide (e.position < x.position)))) ∧
    (s.inRun = false → exec .jniEdge s = .next s) ∧
    (∀ e, s.inRun = true → lastLocal .join s = some e → s.pos - e.position ≤ 200 →
      exec .jniEdge s = .next { s with map := { s.map with entries := s.map.entries.map (fun x =>
        if x.lastLocal && x.kind == .join then { x with count := min 255 (x.count + 1) } else x) } }) ∧
    (s.inRun = true → (∀ e, lastLocal .join s = some e → 200 < s.pos - e.position) →
      (s.map.entries.length < 64 →
        exec .jniEdge s = .next (handed (handOff (closedPoint .join s.pos) (withPoint .join s)))) ∧
      (∀ pre v post, 64 ≤ s.map.entries.length → s.map.entries = pre ++ v :: post →
        (∀ e ∈ pre, evictable e = false) → evictable v = true →
        exec .jniEdge s = .next (handed (handOff (closedPoint .join s.pos) { s with map := { s.map with
          entries := insertEntry (closedPoint .join s.pos) (forgotten (pre ++ post))
          evicted := min 65535 (s.map.evicted + 1) } }))) ∧
      (64 ≤ s.map.entries.length → (∀ e ∈ s.map.entries, evictable e = false) →
        (.mapFull ∈ s.station.locals → exec .jniEdge s = .next refused) ∧
        (.mapFull ∉ s.station.locals → ∃ t, exec .jniEdge s = .next t ∧ t.map = refused.map ∧
          t.station.locals = s.station.locals ++ [.mapFull] ∧ t.station.peers = s.station.peers ∧
          t.station.alm = true ∧
          (s.station.state = .run → s.station.hardHeld = false → t.station.state = .easing) ∧
          (s.station.state = .ready → t.station.state = .stopped) ∧
          t.length.acc = s.length.acc ∧
          (s.ply.queue.length < s.ply.room → t.former = s.former)))) ∧
    (∀ e : MapEntry, 64 ≤ s.map.entries.length →
      let taken := { e with forwarded := !e.isOpen }
      (e.severity = .minor → e.kind ≠ .join → e.kind ≠ .change → offerRaw e s = (refused, none)) ∧
      (∀ pre v post, e.severity = .major ∨ e.kind = .join ∨ e.kind = .change →
        s.map.entries = pre ++ v :: post → (∀ x ∈ pre, evictable x = false) → evictable v = true →
        let placed := { s with map := { s.map with
          entries := insertEntry taken (pre ++ post), evicted := min 65535 (s.map.evicted + 1) } }
        offerRaw e s = (if e.isOpen then placed else handOff taken placed, some taken))) ∧
    (∀ (page : PackagePage) (start offset pos : Nat) (entries : List MapEntry) (early late : Int),
      let x := min page.margin offset
      let c : Int := (start + page.target : Nat)
      early ≤ c → freeAt x entries early → (∀ y, early < y → y ≤ c → ¬ freeAt x entries y) →
      c ≤ late → freeAt x entries late → (∀ y, c ≤ y → y < late → ¬ freeAt x entries y) →
      let before : Prop := ((start + page.target * page.minimum / 1000 : Nat) : Int) ≤ early
        ∧ (pos : Int) < early + offset
      let behind : Prop := late ≤ (start + page.target * page.maximum / 1000 : Nat)
      (freeAt x entries c → resolvePlan page start offset pos entries = .at_ (start + page.target)) ∧
      (¬ freeAt x entries c →
        (before → resolvePlan page start offset pos entries = .at_ early.toNat) ∧
        (¬ before → behind → resolvePlan page start offset pos entries = .at_ late.toNat) ∧
        (∀ pre b post, ¬ before → ¬ behind → entries = pre ++ b :: post → ¬ freeAt x [b] c →
          (∀ e ∈ pre, ¬ freeAt x [e] c → b.position < e.position) →
          (∀ e ∈ post, ¬ freeAt x [e] c → b.position ≤ e.position) →
          resolvePlan page start offset pos entries = .cutOut b))) ∧
    (∀ p, s.openPackage = some p → s.former.cuts.length ≤ 6 →
      let page := s.packagePage p.bank
      let x := min page.margin s.cfg.cutterOffset
      let withCuts (cuts : List Cut) : State := { s with former := { s.former with cuts := cuts } }
      let placed (c : Cut) (cuts : List Cut) : State := if s.pos < c.position + s.cfg.cutterOffset then
          withCuts (cutPlaced (firmed x s.pos c) cuts)
        else fire c (s.pos - s.cfg.cutterOffset) 0 (withCuts cuts)
      let moved (c : Cut) (cuts : List Cut) : State := if s.pos < c.position + s.cfg.cutterOffset then
          withCuts (cutMoved (firmed x s.pos c) cuts)
        else fire c (s.pos - s.cfg.cutterOffset) 0 (withCuts cuts)
      let loose (c : Cut) : Prop := c.purpose = .packageEnd ∧ c.plan = some .length ∧ c.firm = false
      ((∀ c ∈ s.former.cuts, ¬ loose c) → checkPlan fire s = s) ∧
      (∀ pre c post, s.former.cuts = pre ++ c :: post → (∀ q ∈ pre, ¬ loose q) → loose c →
        (freeAt x s.map.entries c.position → checkPlan fire s = s) ∧
        (¬ freeAt x s.map.entries c.position → checkPlan fire s
          = match resolvePlan page p.startPos s.cfg.cutterOffset s.pos s.map.entries with
            | .at_ y => moved { cutAt y .packageEnd (some .length) none with placed := c.placed } (pre ++ post)
            | .cutOut b => (cutOut fire b true s).1)) ∧
      (∀ e ∈ s.map.entries, s.cfg.forming = true → e.kind = .join → e.severity = .minor →
        let limited : Prop := p.type = .normal ∧ (∀ c ∈ s.former.cuts, e.position < c.position)
          ∧ page.maxJoins < s.map.entries.countP (fun m => m.kind == .join)
        let kept := s.former.cuts.filter (fun c => decide (c.purpose ≠ .packageEnd))
        (¬ limited → entryInserted fire e s = checkPlan fire s) ∧
        (limited → p.startPos + page.target * page.minimum / 1000 + x ≤ e.position → kept.length < 6 →
          entryInserted fire e s = placed (cutAt (e.position - x) .packageEnd (some .joinLimit) none) kept) ∧
        (limited → e.position < p.startPos + page.target * page.minimum / 1000 + x →
          entryInserted fire e s = (cutOut fire e false s).1)))

/-- The hand-off of a closing entry queues one HANDOFF for each TAKE peer, in listen table order, with the
entry's copy, and changes nothing else while the queue has room for all of them (R80, R185). HALT, RESUME and
GO are URGENT, every other queued kind NORMAL (R176). The queue has room for 8 frames, or for 7 while a
request's ANSWER holds a place
(R184, R191). A frame queued with room goes to the end of the list.
Without room an URGENT frame displaces the youngest NORMAL frame not in flight, and where there is none it is
itself dropped, as a NORMAL frame is; each drop is counted in `queue_drops` up to 65,535 and told to the
dropped frame's owner, a PKG's record becoming UNSENT (R93, R183, R185). -/
def Obligations.HandOffQueuesACopyForEachTakePeer : Prop :=
  (∀ (s : State) (e : MapEntry),
    let takers := s.pace.listen.toList.filter (fun p => p.status == .peer && p.role == .take)
    let copy (p : ListenEntry) : TxBody := .handoff {
      dest := p.number, kind := e.kind, origin := if e.origin = 0 then s.own else e.origin
      severity := e.severity, count := e.count, extent := e.extent, entryEnd := e.position + e.extent, travel := 0 }
    handOff e s = takers.foldl (fun t p => enqueue (copy p) t) s ∧
    (s.ply.queue.length + takers.length ≤ s.ply.room →
      handOff e s = { s with ply := { s.ply with
        queue := s.ply.queue ++ takers.map (fun p => fresh (copy p)) } })) ∧
  ∀ (s : State) (b : TxBody),
    let urgent (x : TxBody) : Bool := match x with
      | .halt _ _ | .resume _ | .go _ => true
      | .handoff _ | .pkg _ | .answer _ _ _ => false
    let gives (f : QFrame) : Bool := !urgent f.body && !f.inFlight
    let dropped (x : TxBody) (queue : List QFrame) : State := dropTold x { s with ply := { s.ply with
      queue := queue, queueDrops := min 65535 (s.ply.queueDrops + 1) } }
    b.urgent = urgent b ∧ s.ply.room = (if s.ply.placeHeld = true then 7 else 8) ∧
    (s.ply.queue.length < s.ply.room →
      enqueue b s = { s with ply := { s.ply with queue := s.ply.queue ++ [fresh b] } }) ∧
    (s.ply.room ≤ s.ply.queue.length →
      (urgent b = false → enqueue b s = dropped b s.ply.queue) ∧
      (urgent b = true → (∀ f ∈ s.ply.queue, gives f = false) → enqueue b s = dropped b s.ply.queue) ∧
      (∀ pre v post, urgent b = true → s.ply.queue = pre ++ v :: post → gives v = true →
        (∀ f ∈ post, gives f = false) → enqueue b s = dropped v.body (pre ++ post ++ [fresh b])))

/-- BRK going active and STP raise their HARD cause while a run exists: the cause is taken, the station is
STOPPED at that event with DEN off and ALM on, the run pace is 0 unless it stood STOPPED, and the first
cause is this one if the set was empty (R153, R155, R159, R160, R162, R165). A HALT at HARD with this
station's number is queued unless the station stands STOPPED (R169). From RUN or EASING a STOP entry is
merged into the last local STOP at the same position, or inserted at the run position and handed off (R73,
R155), its HANDOFFs queued after the HALT (log entry 33); from READY none is written. Where nothing is raised
(BRK active already, no run, or the
cause held) all but the pin's level stays, and BRK going inactive removes nothing (R161, R162). -/
def Obligations.HardInputsStopTheStation : Prop :=
  ∀ s : State, StationLawful s →
    let takers := s.pace.listen.toList.filter (fun p => p.status == .peer && p.role == .take)
    let halted := s.ply.queue ++ [fresh (.halt s.own .hard)]
    let stopped (c : LocalCause) (t : State) : Prop :=
      c ∈ t.station.locals ∧ (∀ x ∈ s.station.locals, x ∈ t.station.locals) ∧
      t.station.peers = s.station.peers ∧ t.station.state = .stopped ∧ t.station.den = false ∧
      t.station.alm = true ∧
      (s.station.setEmpty = true → t.station.firstCause = some ⟨.loc c, s.own⟩) ∧
      (s.station.setEmpty = false → t.station.firstCause = s.station.firstCause) ∧
      (s.station.state ≠ .stopped → t.pace.run = 0) ∧
      t.length.acc = s.length.acc ∧ t.start = s.start ∧ t.pace.listen = s.pace.listen ∧
      (s.station.state = .stopped → t.ply = s.ply ∧ t.map = s.map) ∧
      (s.station.state ≠ .stopped → s.ply.queue.length < s.ply.room →
        fresh (.halt s.own .hard) ∈ t.ply.queue) ∧
      (s.station.state = .ready → t.map = s.map ∧
        (s.ply.queue.length < s.ply.room → t.ply.queue = halted)) ∧
      (s.station.state.driven = true → (∀ e ∈ s.map.entries, e.isOpen = false) →
        s.ply.queue.length + 1 + takers.length ≤ s.ply.room →
        (∀ e, lastLocal .stop s = some e → e.position = s.pos → t.ply.queue = halted ∧
          t.map = { s.map with entries := s.map.entries.map (fun x =>
            if x.lastLocal && x.kind == .stop then { x with count := min 255 (x.count + 1) } else x) }) ∧
        ((∀ e, lastLocal .stop s = some e → e.position ≠ s.pos) → s.map.entries.length < 64 →
          t.map = (withPoint .stop s).map ∧
          t.ply.queue = halted ++ takers.map (fun p => fresh (.handoff {
            dest := p.number, kind := .stop, origin := s.own, severity := .minor, count := 1, extent := 0
            entryEnd := s.pos, travel := 0 }))))
    (s.station.brkActive = true → exec .brkActive s = .next s) ∧
    ((s.inRun = false ∨ .brk ∈ s.station.locals) →
      exec .brkActive s = .next { s with station := { s.station with brkActive := true } }) ∧
    ((s.inRun = false ∨ .localStop ∈ s.station.locals) → exec .stpEdge s = .next s) ∧
    exec .brkInactive s = .next { s with station := { s.station with brkActive := false } } ∧
    (s.inRun = true → s.station.brkActive = false → .brk ∉ s.station.locals →
      ∃ t, exec .brkActive s = .next t ∧ stopped .brk t ∧ t.station.brkActive = true) ∧
    (s.inRun = true → .localStop ∉ s.station.locals →
      ∃ t, exec .stpEdge s = .next t ∧ stopped .localStop t
        ∧ t.station.brkActive = s.station.brkActive)

/-- STA in READY, with room for its frame: the station runs with DEN on, GO with its own number is queued,
the slot is refreshed, the dwell countdown is loaded, and a window or a row opens by kind (R9, R22, R48,
R130, R152, R159). In every state but IDLE and READY it is ignored. -/
def Obligations.StaGivesGoInReady : Prop :=
  ∀ s : State,
    (s.station.state = .ready → s.ply.queue.length < s.ply.room →
      ∃ t, exec .staEdge s = .next t ∧
        t.station = { s.station with state := .run, den := true } ∧
        t.ply.queue = s.ply.queue ++ [fresh (.go s.own)] ∧ t.ply.paceWaiting.isSome = true ∧
        t.pace = { s.pace with period := s.cfg.pacePeriod } ∧
        t.length = { s.length with dwellCount := s.cfg.dwellTime * 10 } ∧
        t.twist = (if s.cfg.kind = .laying then { s.twist with
          windowOpen := true, pulses := 0, width := 0, windowStart := s.pos } else s.twist) ∧
        t.knot = (if s.cfg.kind = .netting then { s.knot with
          rowOpen := true, counters := Vector.replicate 8 0, rowStart := s.pos, prevClose := none }
          else s.knot) ∧
        t.map = s.map ∧ t.former = s.former ∧ t.banks = s.banks ∧ t.marks = s.marks) ∧
    (s.station.state ≠ .ready → s.station.state ≠ .idle → exec .staEdge s = .next s)

/-- A run begins in IDLE, by STA with the start bank when it is LOADED and no restart pends, or by RUN(k)
with a LOADED bank, answered DONE. At run start the position, the map, inspection, trim, run pace and
arrivals are cleared, the bank is ACTIVE, the marks restart with its interval, a forming station opens its
first package at position 0, and the station is READY, or STOPPED holding BREAK when BRK is active. On a
LAYING station eff10 is set from the bank's target10 by the balance of the feeders (R35, R36), and the own offer
from it at trim 0 (R40, R45). STA
otherwise changes nothing in IDLE; RUN is refused with STATE in another state and with BANK_EMPTY for an
EMPTY bank (R15, R18, R45, R65, R86, R91, R113, R120, R149, R151, R158, R174). -/
def Obligations.RunStartMakesTheBankActiveAndClearsTheBlocks : Prop :=
  ∀ s : State, s.station.setEmpty = true →
    let begun (k : Nat) (t : State) : Prop :=
      t.station.state = (if s.station.brkActive then .stopped else .ready) ∧
      t.station.locals = (if s.station.brkActive then [.brk] else []) ∧ t.station.peers = [] ∧
      t.station.den = false ∧ t.station.prevFirst = s.station.prevFirst ∧ t.length = .reset ∧
      t.map = .reset ∧ t.knot = .reset ∧ t.twist.trim = 0 ∧ t.twist.windowOpen = false ∧
      t.twist.windowCount = 0 ∧ t.pace.run = 0 ∧ t.pace.arrivals = [] ∧
      t.pace.listen = s.pace.listen ∧ t.marks.skipped = 0 ∧
      t.bank k = { s.bank k with state := .active } ∧ (∀ j, j ≠ k → t.bank j = s.bank j) ∧
      t.start = s.start ∧
      (BankLawful s → t.marks = marksFrom (s.packagePage k).markInterval { s.marks with skipped := 0 }) ∧
      (BankLawful s → s.cfg.kind = .laying →
        let aim := aimOf ((s.bank k).twist.getD .absent).target10 s
        t.twist.eff10 = some aim ∧
        t.twist.ownOffer = min s.cfg.ownLimit (s.cfg.smax * 100000 / (aim * 1000))) ∧
      (s.cfg.kind ≠ .laying → t.twist.eff10 = s.twist.eff10 ∧ t.twist.ownOffer = s.twist.ownOffer) ∧
      (BankLawful s → PackageLawful s → s.cfg.forming = true → t.openPackage = some {
              number := s.former.nextNumber, type := .normal, bank := k
              productCode := (s.packagePage k).productCode, startPos := 0, endPos := none, joinCount := 0
              joins := [], defects := [], defectsDropped := 0, grade := none, reason := none
              state := .opened, report := none })
    (s.station.state = .idle → s.cfg.startBank < 4 →
      ((s.bank s.cfg.startBank).state ≠ .loaded ∨ s.station.restartPending = true →
        exec .staEdge s = .next s) ∧
      ((s.bank s.cfg.startBank).state = .loaded → s.station.restartPending = false →
        ∃ t, exec .staEdge s = .next t ∧ begun s.cfg.startBank t)) ∧
    (∀ (h : AskHead) (k : Byte), asked h s → serving s → k.toNat ≤ 3 →
      (s.station.state ≠ .idle → exec (.askRun ⟨h, [k]⟩) s = .next (answered h 8 2 1 [] s)) ∧
      (s.station.state = .idle → (s.bank k.toNat).state = .empty →
        exec (.askRun ⟨h, [k]⟩) s = .next (answered h 8 2 2 [] s)) ∧
      (s.station.state = .idle → (s.bank k.toNat).state = .loaded →
        ∃ t, exec (.askRun ⟨h, [k]⟩) s = .next t ∧ begun k.toNat t ∧
          t.ply.queue.getLast? = some (answerTo h 8 0 0 [])))

/-- CLR while a run exists and a cause is held removes every local cause that its condition allows and no
peer record; the emptied set takes EASING to RUN and STOPPED to READY with ALM off and the first cause moved
on, and RESUME with this station's number is queued when no local cause is left (R154, R156, R160, R165,
R166, R168). -/
def Obligations.ClrRemovesWhatMayBeRemoved : Prop :=
  ∀ s : State,
    (s.inRun = false ∨ s.station.setEmpty = true → exec .clrEdge s = .next s) ∧
    (s.inRun = true → StationLawful s → s.station.setEmpty = false → s.ply.queue.length < s.ply.room →
      let kept := s.station.locals.filter (fun c => match c with
        | .brk => s.station.brkActive
        | .mapFull => decide (64 ≤ s.map.entries.length)
        | .runLimit => true
        | _ => false)
      let emptied := kept = [] ∧ s.station.peers = []
      ∃ t, exec .clrEdge s = .next t ∧ t.station.locals = kept ∧ t.station.peers = s.station.peers ∧
        (emptied → t.station.state = (if s.station.state = .easing then .run else .ready) ∧
          t.station.alm = false ∧ t.station.prevFirst = s.station.firstCause
          ∧ t.station.firstCause = none) ∧
        (¬ emptied → t.station = { s.station with locals := kept }) ∧
        t.ply.queue = (if s.station.locals ≠ [] ∧ kept = [] then
          s.ply.queue ++ [fresh (.resume s.own)] else s.ply.queue) ∧
        t.length.acc = s.length.acc ∧ t.map = s.map ∧ t.former = s.former ∧ t.banks = s.banks ∧
        t.twist = s.twist ∧ t.knot = s.knot ∧ t.pace.run = s.pace.run)

/-! ## Time (chapters 1, 2 and 7) -/

/-- A peer contributes its feed_offer times 1000 over the take-up as FEED, its take_offer times the take-up
over 1000 as TAKE, floored, and 0 while it is stale, has not reported or reports another state than RUN. At
take-up 1,400 a TAKE peer's 4,286 gives 6,000 at most and a larger offer can give more; converted up and
down again a pace comes back equal or lower (R133). -/
def Obligations.PeerOfferIsConvertedToTheOwnMeasure : Prop :=
  ∀ (e : ListenEntry) (r : PaceReport),
    (e.stale = true → e.contribution = 0) ∧ (e.lastReport = none → e.contribution = 0) ∧
    (e.lastReport = some r → r.state ≠ .run → e.contribution = 0) ∧
    (e.lastReport = some r → r.state = .run → e.stale = false →
      e.contribution = match e.role with
        | .feed => r.feedOffer * 1000 / e.takeUp
        | .take => r.takeOffer * e.takeUp / 1000) ∧
    (e.role = .take → e.takeUp = 1400 → e.lastReport = some r →
      (r.takeOffer ≤ 4286 → e.contribution ≤ 6000) ∧
      (4286 < r.takeOffer → r.state = .run → e.stale = false → 6000 < e.contribution)) ∧
    (∀ pace takeUp : Nat, 0 < takeUp → pace * takeUp / 1000 * 1000 / takeUp ≤ pace
      ∧ pace * 1000 / takeUp * takeUp / 1000 ≤ pace)

/-- A regulation tick in RUN: each peer's stale countdown above 0 falls by 1 and makes the peer stale at 0
(R132); the target pace is the least of the own offer and the peers' contributions after that, the run pace
takes one ramp step toward it and never past it, and the set-point link holds the run pace and S_cmd of this
tick (R134, R135, R136, R38, R39). The dwell countdown falls by 1 and at 0 the station dwells as by
DWELL_START (R9, R10); the pace period falls by 1 and at 0 the slot is refreshed with this tick's pace and
offers (R130). A tick in EASING, IDLE, READY or STOPPED counts stale countdowns and pace period alike, forms
feed_offer and take_offer and sets the target pace to 0; the run pace falls by the stop ramp step in EASING,
where the transition to STOPPED refreshes the slot before the period falls, and is kept elsewhere, where the
link holds it and 0; in START, once RSTn is high, and HELD the pace block takes no tick (R130, R132, R134,
R136; the order, log entry 14). -/
def Obligations.TickInRunRampsTowardTheTarget : Prop :=
  ∀ s : State,
    let counted (e : ListenEntry) : ListenEntry :=
      if e.status = .peer ∧ 0 < e.staleCount then
        { e with staleCount := e.staleCount - 1, stale := e.stale || decide (e.staleCount = 1) } else e
    let listen := s.pace.listen.map counted
    let peers := listen.toList.filter (fun e => e.status == .peer)
    let least (l : List ListenEntry) : Nat := l.foldl (fun acc e => min acc e.contribution) s.twist.ownOffer
    let offers (t : State) : Prop := t.pace.listen = listen ∧
      t.pace.feedOffer = least (peers.filter (fun e => e.role == .feed)) ∧
      t.pace.takeOffer = least (peers.filter (fun e => e.role == .take))
    let period (t : State) : Prop :=
      (s.pace.period ≠ 1 → t.pace.period = s.pace.period - 1 ∧ t.ply.paceWaiting = s.ply.paceWaiting) ∧
      (s.pace.period = 1 → t.pace.period = s.cfg.pacePeriod ∧
        ∃ r : PaceReport, t.ply.paceWaiting = some ⟨r, 0⟩ ∧ r.state = s.station.state ∧
          r.runPace = t.pace.run ∧ r.ownOffer = s.twist.ownOffer ∧ r.feedOffer = t.pace.feedOffer ∧
          r.takeOffer = t.pace.takeOffer ∧ r.position = s.length.acc / 1000)
    (s.station.state = .run → s.start.phase = .over →
      ∃ t, exec .regulationTick s = .next t ∧ offers t ∧ period t ∧
        t.pace.target = least peers ∧
        t.pace.run = (if s.pace.run < t.pace.target then min t.pace.target (s.pace.run + s.cfg.rampUp)
          else if t.pace.target < s.pace.run then max t.pace.target (s.pace.run - s.cfg.rampDown)
          else s.pace.run) ∧
        t.station.state = .run ∧ t.station.locals = s.station.locals ∧ t.length.acc = s.length.acc ∧
        t.twist.linkCapstan = t.pace.run ∧ t.twist.linkSpindle = t.twist.sCmd ∧
        t.twist.trim = s.twist.trim ∧ t.twist.eff10 = s.twist.eff10 ∧
        t.twist.sCmd = (if s.cfg.kind = .laying then
            let base := (2 * (t.pace.run * s.twist.eff10.getD 0) + 100) / 200
            min s.cfg.smax ((2 * (base * (1000 + s.twist.trim).toNat) + 1000) / 2000)
          else 0) ∧
        (s.length.dwelling = true ∨ s.length.dwellCount = 0 → t.length = s.length ∧ t.map = s.map) ∧
        (s.length.dwelling = false → 1 < s.length.dwellCount →
          t.length = { s.length with dwellCount := s.length.dwellCount - 1 } ∧ t.map = s.map) ∧
        (s.length.dwelling = false → s.length.dwellCount = 1 →
          ∃ u, exec .dwellStart s = .next u ∧ t.length = u.length ∧ t.map = u.map ∧
            t.ply.queue = u.ply.queue ∧ t.length.dwelling = true ∧ t.length.dwellCount = 0) ∧
        t.start = s.start ∧ t.banks = s.banks) ∧
    (s.station.state = .easing → s.start.phase = .over →
      ∃ t, exec .regulationTick s = .next t ∧ offers t ∧ t.pace.target = 0 ∧
        t.pace.run = s.pace.run - s.cfg.stopRamp ∧ t.twist.linkCapstan = t.pace.run ∧
        t.twist.linkSpindle = t.twist.sCmd ∧
        (s.cfg.stopRamp < s.pace.run → period t ∧ t.station = s.station ∧ t.map = s.map
          ∧ t.length = s.length) ∧
        (s.pace.run ≤ s.cfg.stopRamp → t.station.state = .stopped ∧
          t.pace.period = (if s.cfg.pacePeriod = 1 then 1 else s.cfg.pacePeriod - 1) ∧
          ∃ r : PaceReport, t.ply.paceWaiting = some ⟨r, 0⟩ ∧ r.state = .stopped ∧ r.runPace = 0 ∧
            r.feedOffer = t.pace.feedOffer ∧ r.takeOffer = t.pace.takeOffer ∧
            r.position = s.length.acc / 1000)) ∧
    (s.station.state = .idle ∨ s.station.state = .ready ∨ s.station.state = .stopped → s.start.phase = .over →
      ∃ t, exec .regulationTick s = .next t ∧ offers t ∧ period t ∧
        t.pace.target = 0 ∧ t.pace.run = s.pace.run ∧ t.twist.sCmd = 0 ∧
        t.twist.linkCapstan = s.pace.run ∧ t.twist.linkSpindle = 0 ∧
        t.station = s.station ∧ t.length = s.length ∧ t.map = s.map ∧ t.former = s.former ∧
        t.knot = s.knot ∧ t.start = s.start ∧ t.banks = s.banks ∧ t.ply.queue = s.ply.queue) ∧
    (s.station.state = .start ∨ s.station.state = .held → s.start.phase ≠ .inReset →
      ∃ t, exec .regulationTick s = .next t ∧ t.pace = s.pace ∧ t.station = s.station ∧ t.ply = s.ply ∧
        t.length = s.length)

/-- A regulation tick in EASING: the run pace falls by the stop ramp step; at 0 the station is STOPPED with
DEN off at that tick (R136, R154, R155, R159), and otherwise it goes on easing. -/
def Obligations.TickInEasingRampsDownAndStops : Prop :=
  ∀ s : State, s.station.state = .easing → s.start.phase = .over →
    ∃ t, exec .regulationTick s = .next t ∧ t.pace.run = s.pace.run - s.cfg.stopRamp ∧
      t.pace.target = 0 ∧ t.twist.linkCapstan = t.pace.run ∧ t.length.acc = s.length.acc ∧
      (if s.pace.run ≤ s.cfg.stopRamp then
        t.station.state = .stopped ∧ t.station.den = false ∧ t.length.dwelling = false ∧
          (s.cfg.kind = .laying → t.twist.windowOpen = false) ∧
          (s.cfg.kind = .netting → t.knot.rowOpen = false)
      else t.station.state = .easing ∧ t.station = s.station ∧ t.map = s.map)

/-- The dwell countdown reaching 0 in RUN sets dwelling, and writes a DWELL at the run position: merged into
the last local DWELL at the same position, otherwise inserted and handed off, or refused by a full map and
counted (R10, R73, R76). That the event acts whatever the countdown holds, and changes nothing elsewhere, is
the model's reading of the command (log entries 13 and 15). -/
def Obligations.DwellStartWritesADwell : Prop :=
  ∀ s : State,
    let began := { s with length := { s.length with dwelling := true, dwellCount := 0 } }
    (s.station.state ≠ .run ∨ s.length.dwelling = true → exec .dwellStart s = .next s) ∧
    (s.station.state = .run → s.length.dwelling = false →
      (∀ e, lastLocal .dwell s = some e → e.position = s.pos →
        exec .dwellStart s = .next { began with map := { s.map with entries := s.map.entries.map (fun x =>
          if x.lastLocal && x.kind == .dwell then { x with count := min 255 (x.count + 1) }
          else x) } }) ∧
      ((∀ e, lastLocal .dwell s = some e → e.position ≠ s.pos) →
        (s.map.entries.length < 64 →
          exec .dwellStart s = .next (handOff (closedPoint .dwell s.pos) (withPoint .dwell began))) ∧
        (64 ≤ s.map.entries.length →
          exec .dwellStart s = .next { began with map := { s.map with
            dropped := min 65535 (s.map.dropped + 1) } })))

/-- The pace period reaching 0 refreshes the slot with a report of the station's own values as they stand
and loads the countdown; in START and HELD no report is built (R126, R129, R130, R186). Its in-service cause
is the held cause of lowest rank with its origin, this station's number for a local cause, and among peer
records of that rank the first taken (R165). That the event acts whatever the countdown holds is the
model's reading of the command (log entries 13 and 15). -/
def Obligations.PacePeriodExpiryRefreshesTheSlot : Prop :=
  ∀ s : State,
    (s.station.state.reports = false → exec .pacePeriodExpiry s = .next s) ∧
    (s.station.state.reports = true → ∃ r : PaceReport,
      exec .pacePeriodExpiry s = .next { s with
        ply := { s.ply with paceWaiting := some ⟨r, 0⟩ }
        pace := { s.pace with period := s.cfg.pacePeriod } } ∧
      r.state = s.station.state ∧ r.ownOffer = s.twist.ownOffer ∧ r.feedOffer = s.pace.feedOffer ∧
      r.takeOffer = s.pace.takeOffer ∧ r.runPace = s.pace.run ∧ r.position = s.length.acc / 1000 ∧
      (r.lastD10, r.windowCount) =
        (if s.cfg.kind = .laying then (s.twist.lastD10, s.twist.windowCount) else (0, 0)) ∧
      r.activeBank = s.activeBank.getD 0 ∧
      (s.activeBank = none → r.productCode = 0) ∧
      (∀ k, s.activeBank = some k → r.productCode = (s.packagePage k).productCode) ∧
      (s.station.setEmpty = true → r.serviceCause = 0 ∧ r.serviceOrigin = 0) ∧
      (let peerRank (p : PeerHalt) : Nat := if p.level = .hard then 3 else 5
       let ranks := s.station.locals.map (fun c => c.rank) ++ s.station.peers.map peerRank
       s.station.setEmpty = false →
        r.serviceCause ∈ ranks ∧ (∀ n ∈ ranks, r.serviceCause ≤ n) ∧
        (r.serviceCause ≠ 3 → r.serviceCause ≠ 5 → r.serviceOrigin = s.own) ∧
        (∀ pre p post, s.station.peers = pre ++ p :: post → (∀ q ∈ pre, peerRank q ≠ r.serviceCause) →
          peerRank p = r.serviceCause → r.serviceOrigin = p.origin)) ∧
      (s.station.firstCause = none → r.firstCause = 0 ∧ r.firstOrigin = 0) ∧
      (∀ h, s.station.firstCause = some h → r.firstCause = h.cause.rank ∧ r.firstOrigin = h.origin))

/-- The ends of countdowns and pulses: a peer becomes stale (R132), the printer link is free (R14), CUT falls
(R96), and the normal hold clears at idle count 128 (R182), where the line has been seen idle (R175); each
changes nothing else. That a peer becomes stale and the idle count stands at 128 whatever was counted, and
that the two change nothing elsewhere, is the model's reading of the commands (log entries 13 and 15). -/
def Obligations.CountdownEndsActOnTheirOwnStateAlone : Prop :=
  ∀ (s : State) (i : Fin 6),
    exec (.peerStale i) s = .next (if s.station.state.reports = true ∧ s.pace.listen[i.val].status = .peer
      then { s with pace := { s.pace with
        listen := s.pace.listen.set i.val { s.pace.listen[i.val] with staleCount := 0, stale := true } } }
      else s) ∧
    exec .markShiftComplete s = .next { s with marks := { s.marks with printer := none } } ∧
    exec .cutPulseEnd s = .next { s with former := { s.former with cutHigh := false } } ∧
    exec .normalHoldTimeout s = .next (if s.ply.isOn = true ∧ s.ply.sending = false then
      { s with ply := { s.ply with idle := max s.ply.idle 128, seenIdle := true, hold := false } } else s)

/-! ## Sending on the ply line (chapter 9) -/

/-- Once the idle count has reached a frame's access delay, 2 + n slots for an URGENT frame and 66 + n for a
NORMAL one at station number n, an access begins with the first eligible frame in queue order: the first
URGENT frame, else, while the normal hold is clear, the first queued frame with a HANDOFF's travel written
now, the run position minus the entry's end clamped to a signed 32-bit value, else the report that waits. LTE
goes high, the frame's bytes stand on LTX and the idle count returns to 0
(R80, R175, R179, R181, R184, R186). Below the delay, with the interface off, an access in progress or no eligible
frame, nothing happens (log entry 15). -/
def Obligations.AccessStartSendsTheFirstEligibleFrame : Prop :=
  ∀ s : State,
    let sent (b : TxBody) (q : List QFrame) : State := { s with ply := { s.ply with
      queue := q, access := some 1, lte := true, wire := (b.bytes s.own).map LineByte.send, idle := 0 } }
    (∀ c : HandoffCopy, (TxBody.handoff c).fill s.pos = .handoff { c with
      travel := max (-2147483648) (min 2147483647 ((s.pos : Int) - c.entryEnd)) }) ∧
    (∀ b : TxBody, (∀ c, b ≠ .handoff c) → b.fill s.pos = b) ∧
    ((s.ply.isOn = false ∨ s.ply.access ≠ none ∨
        (s.ply.queue = [] ∧ s.ply.paceWaiting = none) ∨
        ((s.ply.hold = true ∨ s.ply.idle < 66 + s.own) ∧ ∀ f ∈ s.ply.queue, f.body.urgent = false) ∨
        s.ply.idle < 2 + s.own) →
      exec .accessStart s = .next s) ∧
    (s.ply.isOn = true → s.ply.access = none →
      (∀ pre f post, 2 + s.own ≤ s.ply.idle → s.ply.queue = pre ++ f :: post →
        (∀ g ∈ pre, g.body.urgent = false) → f.body.urgent = true →
        exec .accessStart s = .next (sent f.body (pre ++ { f with inFlight := true } :: post))) ∧
      (∀ f post, 66 + s.own ≤ s.ply.idle → s.ply.queue = f :: post →
        (∀ g ∈ f :: post, g.body.urgent = false) → s.ply.hold = false →
        exec .accessStart s = .next (sent (f.body.fill s.pos)
          ({ f with body := f.body.fill s.pos, inFlight := true } :: post))) ∧
      (∀ f, 66 + s.own ≤ s.ply.idle → s.ply.queue = [] → s.ply.hold = false → s.ply.paceWaiting = some f →
        exec .accessStart s = .next { s with ply := { s.ply with
          paceWaiting := none, paceFlight := some f, access := some 1, lte := true
          wire := (f.report.bytes s.own).map LineByte.send, idle := 0 } }))

/-- A frame that leaves without collision is removed; a NORMAL one sets the normal hold; a PKG's record
becomes REPORTED, and the ANSWER to an accepted RESTART has gone, so that WARM_RESTART then acts (R93, R158,
R182, R183, R186). The access ends unless fewer than `burst` frames have gone and an
eligible one waits (R182). With no frame in flight nothing happens (log entry 15). -/
def Obligations.FrameSentLeavesTheQueue : Prop :=
  ∀ s : State,
    let goesOn (p : Ply) : Bool := decide (p.access.getD 0 < s.cfg.burst) && p.pick.isSome
    let after (p : Ply) : Ply := if goesOn p then { p with wire := [] }
      else { p with access := none, lte := false, wire := [] }
    (∀ pre f post, s.ply.queue = pre ++ f :: post → (∀ g ∈ pre, g.inFlight = false) → f.inFlight = true →
      ∃ t, exec .frameSent s = .next t ∧
        t.ply = after { s.ply with
          queue := pre ++ post, idle := 0, hold := s.ply.hold || !f.body.urgent } ∧
        (∀ p, f.body = .pkg p → t.former = { s.former with table := s.former.table.map (fun r =>
          if r.number = p.number ∧ r.state = .closed then { r with state := .reported, report := none }
          else r) }) ∧
        ((∀ p, f.body ≠ .pkg p) → t.former = s.former) ∧
        t.station = (match f.body with
          | .answer _ _ true => { s.station with answerGone := true }
          | _ => s.station) ∧
        t.map = s.map ∧ t.pace = s.pace ∧ t.banks = s.banks) ∧
    (∀ f, (∀ g ∈ s.ply.queue, g.inFlight = false) → s.ply.paceFlight = some f →
      exec .frameSent s = .next { s with ply := after { s.ply with
        paceFlight := none, idle := 0, hold := true } }) ∧
    (s.ply.sending = false → exec .frameSent s = .next s)

/-- A collision ends the access and is counted; the frame keeps its place with one more collision, and at 16
it is dropped, counted, a PKG's record becomes UNSENT, and the ANSWER to an accepted RESTART counts as gone, so
that WARM_RESTART then acts (R93, R158, R183); a collided report waits again unless
a newer one waits (R186). A report's sixteenth collision counts and drops it before a newer one is looked
at (log entry 21). With no frame in flight nothing happens (log entry 15). -/
def Obligations.CollisionEndsTheAccess : Prop :=
  ∀ s : State,
    let ended : Ply := { s.ply with
      access := none, lte := false, wire := [], idle := 0, collisions := min 65535 (s.ply.collisions + 1) }
    (∀ pre f post, s.ply.paceFlight = none → s.ply.queue = pre ++ f :: post →
      (∀ g ∈ pre, g.inFlight = false) → f.inFlight = true →
      (f.collisions + 1 < 16 → exec .collision s = .next { s with ply := { ended with
        queue := pre ++ { f with collisions := f.collisions + 1, inFlight := false } :: post } }) ∧
      (16 ≤ f.collisions + 1 → ∃ t, exec .collision s = .next t ∧
        t.ply = { ended with
          queue := pre ++ post, collisionDrops := min 65535 (s.ply.collisionDrops + 1) } ∧
        (∀ p, f.body = .pkg p → t.former = { s.former with table := s.former.table.map (fun r =>
          if r.number = p.number ∧ r.state = .closed then { r with report := some .unsent } else r) }) ∧
        ((∀ p, f.body ≠ .pkg p) → t.former = s.former) ∧
        t.station = (match f.body with
          | .answer _ _ true => { s.station with answerGone := true }
          | _ => s.station) ∧
        t.map = s.map ∧ t.pace = s.pace)) ∧
    (∀ f, s.ply.paceFlight = some f →
      exec .collision s = .next { s with ply :=
        if f.collisions + 1 < 16 then { ended with
          paceFlight := none
          paceWaiting := match s.ply.paceWaiting with
            | some newer => some newer
            | none => some { f with collisions := f.collisions + 1 } }
        else { ended with
          paceFlight := none, collisionDrops := min 65535 (s.ply.collisionDrops + 1) } }) ∧
    (s.ply.sending = false → exec .collision s = .next s)

/-- The gap of a burst ends: while fewer than `burst` frames have gone, the first eligible frame at that
moment (no NORMAL one under the normal hold) starts as the next of the access, an URGENT one before a queued
NORMAL one before the report; with
`burst` frames gone or no eligible frame the access ends (R182, R184, R186). Outside an access or with a frame
in flight nothing happens (log entry 15). -/
def Obligations.BurstGoesOnWithTheNextEligibleFrame : Prop :=
  ∀ s : State,
    (s.ply.pick = none ↔ (∀ f ∈ s.ply.queue, f.body.urgent = false) ∧
      (s.ply.hold = true ∨ (s.ply.queue = [] ∧ s.ply.paceWaiting = none))) ∧
    (s.ply.sending = true ↔ (∃ f ∈ s.ply.queue, f.inFlight = true) ∨ s.ply.paceFlight ≠ none) ∧
    ((s.ply.access = none ∨ s.ply.sending = true) → exec .burstNextFrame s = .next s) ∧
    (∀ n, s.ply.access = some n → s.ply.sending = false →
      let sent (b : TxBody) (q : List QFrame) : State := { s with ply := { s.ply with
        queue := q, access := some (n + 1), lte := true, wire := (b.bytes s.own).map LineByte.send, idle := 0 } }
      ((s.cfg.burst ≤ n ∨ s.ply.pick = none) → exec .burstNextFrame s =
        .next { s with ply := { s.ply with access := none, lte := false, wire := [] } }) ∧
      (∀ pre f post, n < s.cfg.burst → s.ply.queue = pre ++ f :: post →
        (∀ g ∈ pre, g.body.urgent = false) → f.body.urgent = true →
        exec .burstNextFrame s = .next (sent f.body (pre ++ { f with inFlight := true } :: post))) ∧
      (∀ f post, n < s.cfg.burst → s.ply.queue = f :: post → (∀ g ∈ f :: post, g.body.urgent = false) →
        s.ply.hold = false →
        exec .burstNextFrame s = .next (sent (f.body.fill s.pos)
          ({ f with body := f.body.fill s.pos, inFlight := true } :: post))) ∧
      (∀ f, n < s.cfg.burst → s.ply.queue = [] → s.ply.hold = false → s.ply.paceWaiting = some f →
        exec .burstNextFrame s = .next { s with ply := { s.ply with
          paceWaiting := none, paceFlight := some f, access := some (n + 1), lte := true
          wire := (f.report.bytes s.own).map LineByte.send, idle := 0 } }))

/-! ## Frames received (chapters 7 to 9) -/

/-- A run of bytes, each taken with its data bits whatever its stop bit read (R175), that fails a test of R187
is dropped and counted, and captured as the first error with bytes 0 and 1 when none is held. Its type is the
first test it fails: LENGTH for fewer than 6 bytes, a length byte above 24 or a length that is not 6 + that byte,
CHECK for check bytes that are not the cyclic check of the bytes before them (R176), KIND for a kind other than
1 to 8, SIZE for a payload length its kind does
not admit, ADDRESS for a sender outside 1 to 62 or a destination above 62. The normal hold clears where length,
check and kind are good (R182), whatever the size, destination and sender, this station's own number too, by log
entry 20. Nothing but the line interface changes. With the interface off it is not
received, and before the line has been seen idle its end is the first idle gap (R175; log entry 56). -/
def Obligations.ReceiveErrorIsCountedAndCaptured : Prop :=
  ∀ (s : State) (chars : List LineByte),
    let bs := chars.map (fun c => c.extractLsb' 1 8)
    let error : Option LineError := if lengthBad bs then some .length
      else if checkBad bs then some .check else laterTest bs
    (s.ply.isOn = false → exec (.receiveError chars) s = .next s) ∧
    (s.ply.isOn = true → s.ply.seenIdle = false → exec (.receiveError chars) s = .next
      { s with ply := { s.ply with idle := 2, seenIdle := true } }) ∧
    (∀ e, listening s → error = some e → exec (.receiveError chars) s = .next { s with ply := { s.ply with
      idle := 2
      hold := s.ply.hold && (e == .length || e == .check || e == .kind)
      lineErrors := min 65535 (s.ply.lineErrors + 1)
      firstError := match s.ply.firstError with
        | some f => some f
        | none => some ⟨e, (bs.getD 0 0).toNat, (bs.getD 1 0).toNat⟩ } })

/-- A PACE whose sender is a peer stores its whole report in that peer's entry, loads the stale countdown and
makes the peer fresh (R131, R178); one from another station, or in START or HELD, is not stored. -/
def Obligations.PaceFrameUpdatesThePeersEntry : Prop :=
  ∀ (s : State) (f : RxFrame) (r : PaceReport), hears f.sender f.dest s → reportFits r →
    f.payload = r.payload →
    exec (.paceFrame f) s = .next (if s.station.state.reports = false then heard s else
      { heard s with pace := { s.pace with listen := s.pace.listen.map (fun e =>
        if e.status = .peer ∧ e.number = f.sender.toNat then
          { e with lastReport := some r, staleCount := s.cfg.staleTime, stale := false } else e) } })

/-- A HALT from a peer makes a record at SOFT when the entry follows SOFT and at the frame's level otherwise,
and is relayed with the record's level; the record acts by R153. A HALT whose origin is held or is this
station, whose sender is no peer, or that comes without a run is ignored (R169, R170). With 8 records held it
makes none and is not relayed: PEER_OVERFLOW is raised in its place, announced with this station's number
unless the station stands STOPPED, and while that is held nothing changes (R169, R171). -/
def Obligations.HaltFrameMakesARecordAndIsRelayed : Prop :=
  ∀ (s : State) (f : RxFrame) (x : Nat) (l : Level), hears f.sender f.dest s →
    1 ≤ x → x ≤ 62 →
    f.payload = [BitVec.ofNat 8 x, BitVec.ofNat 8 (Code.level l)] →
    ((s.inRun = false ∨ s.peerOf f.sender.toNat = none ∨ x = s.own ∨ ∃ p ∈ s.station.peers, p.origin = x) →
      exec (.haltFrame f) s = .next (heard s)) ∧
    (∀ e, s.inRun = true → StationLawful s → s.peerOf f.sender.toNat = some e → x ≠ s.own →
      (∀ p ∈ s.station.peers, p.origin ≠ x) → s.station.peers.length < 8 →
      let level := if e.follow = .soft then .soft else l
      ∃ t, exec (.haltFrame f) s = .next t ∧
        t.station.peers = s.station.peers ++ [⟨x, level⟩] ∧
        (∀ c ∈ s.station.locals, c ∈ t.station.locals) ∧ t.station.alm = true ∧
        t.station.state = (match s.station.state, level with
          | .run, .soft => .easing
          | .easing, .soft => .easing
          | _, _ => .stopped) ∧
        (fresh (.halt x level) ∈ t.ply.queue ∨ s.ply.queueDrops < t.ply.queueDrops
          ∨ t.ply.queueDrops = 65535) ∧
        t.length.acc = s.length.acc ∧ t.start = s.start ∧ t.pace.listen = s.pace.listen) ∧
    (∀ e, s.inRun = true → s.peerOf f.sender.toNat = some e → x ≠ s.own →
      (∀ p ∈ s.station.peers, p.origin ≠ x) → 8 ≤ s.station.peers.length →
      (.peerOverflow ∈ s.station.locals → exec (.haltFrame f) s = .next (heard s)) ∧
      (.peerOverflow ∉ s.station.locals → StationLawful s → s.ply.queue.length < s.ply.room →
        ∃ t, exec (.haltFrame f) s = .next t ∧ t.station.peers = s.station.peers ∧
          t.station.locals = s.station.locals ++ [.peerOverflow] ∧ t.station.alm = true ∧
          t.station.state = s.station.state ∧
          t.ply.queue = (if s.station.state = .stopped then s.ply.queue
            else s.ply.queue ++ [fresh (.halt s.own .soft)]) ∧
          t.map = s.map ∧ t.former = s.former ∧ t.length.acc = s.length.acc))

/-- A RESUME, from any sender, removes the record of its origin and is relayed when one is held; the emptied
set takes EASING to RUN and STOPPED to READY. With no record held it is ignored (R154, R156, R172). -/
def Obligations.ResumeFrameRemovesTheRecordOfItsOrigin : Prop :=
  ∀ (s : State) (f : RxFrame) (x : Nat), hears f.sender f.dest s →
    1 ≤ x → x ≤ 62 → f.payload = [BitVec.ofNat 8 x] →
    ((∀ p ∈ s.station.peers, p.origin ≠ x) → exec (.resumeFrame f) s = .next (heard s)) ∧
    ((∃ p ∈ s.station.peers, p.origin = x) → StationLawful s → s.inRun = true →
      s.ply.queue.length < s.ply.room →
      let left := s.station.peers.filter (fun p => p.origin != x)
      ∃ t, exec (.resumeFrame f) s = .next t ∧ t.station.peers = left ∧
        t.station.locals = s.station.locals ∧ t.ply.queue = s.ply.queue ++ [fresh (.resume x)] ∧
        t.station.state = (if left = [] ∧ s.station.locals = [] then
            (if s.station.state = .easing then .run else .ready) else s.station.state) ∧
        t.station.alm = (if left = [] ∧ s.station.locals = [] then false else s.station.alm) ∧
        t.map = s.map ∧ t.former = s.former ∧ t.banks = s.banks ∧ t.twist = s.twist ∧
        t.pace.run = s.pace.run ∧ t.length.acc = s.length.acc)

/-- A GO from a peer takes a READY station to RUN and is passed on with its origin; a GO in another state, or
from a station that is not a peer, is ignored (R152, R159). -/
def Obligations.GoFrameStartsAReadyStation : Prop :=
  ∀ (s : State) (f : RxFrame) (x : Nat), hears f.sender f.dest s →
    1 ≤ x → x ≤ 62 → f.payload = [BitVec.ofNat 8 x] →
    ((s.station.state ≠ .ready ∨ s.peerOf f.sender.toNat = none) →
      exec (.goFrame f) s = .next (heard s)) ∧
    (∀ e, s.station.state = .ready → s.peerOf f.sender.toNat = some e →
      s.ply.queue.length < s.ply.room →
      ∃ t, exec (.goFrame f) s = .next t ∧
        t.station = { s.station with state := .run, den := true } ∧
        t.ply.queue = s.ply.queue ++ [fresh (.go x)] ∧
        t.pace = { s.pace with period := s.cfg.pacePeriod } ∧ t.length.acc = s.length.acc ∧
        t.map = s.map ∧ t.former = s.former ∧ t.banks = s.banks)

/-- A HANDOFF to this station from a FEED peer in a run is accepted at remaining (path − travel) × 1000 µm,
0 when travel has reached the path. Above 0 it joins the pending arrivals in order of remaining, equals in
order of acceptance; at 0 it arrives at once. On a full
list of 12 a MINOR record that is neither JOIN nor CHANGE is not kept, another replaces the one such record of
largest remaining, and one that finds none raises HANDOFF_LOST; each is counted. From any other sender, for
all stations, or in IDLE it is counted in `handoffs_ignored`, and in START and HELD it is neither (R138, R139,
R140, R142, R144, R145, R179). On a forming station an arrival is handed to the package former (R84): a MAJOR
entry is cut out where the bank asks for it and weighed against the plan, and a CHANGE places a CHANGE cut at its
position, the first PACKAGE_END giving way in a full list; with none it is refused and counted (R101, R105). -/
def Obligations.HandoffFrameJoinsThePendingArrivals : Prop :=
  (∀ (s : State) (f : RxFrame) (c : HandoffCopy), hears f.sender f.dest s →
    copyFits c → f.payload = c.payload →
    (s.station.state.reports = false → exec (.handoffFrame f) s = .next (heard s)) ∧
    (s.station.state.reports = true →
      (s.inRun = false ∨ f.dest = 0 ∨ (∀ e, s.peerOf f.sender.toNat = some e → e.role ≠ .feed)) →
      exec (.handoffFrame f) s = .next { heard s with pace := { s.pace with
        handoffsIgnored := min 65535 (s.pace.handoffsIgnored + 1) } }) ∧
    (∀ e, s.inRun = true → f.dest ≠ 0 → s.peerOf f.sender.toNat = some e → e.role = .feed →
      let a : Arrival := {
        kind := c.kind, origin := c.origin, severity := c.severity, count := c.count, extent := c.extent
        feeder := e.number, remaining := max 0 ((e.path : Int) - c.travel) * 1000
        accepted := s.pace.nextAccept }
      let earlier (x : Arrival) : Bool :=
        decide (x.remaining < a.remaining ∨ (x.remaining = a.remaining ∧ x.accepted ≤ a.accepted))
      (∀ l : List Arrival, insertArrival a l = l.takeWhile earlier ++ a :: l.dropWhile earlier) ∧
      let light (x : Arrival) : Bool := x.severity == .minor && x.kind != .join && x.kind != .change
      let full (arrivals : List Arrival) : State := { heard s with pace := { s.pace with
        nextAccept := s.pace.nextAccept + 1, arrivals := arrivals
        arrivalsDropped := min 65535 (s.pace.arrivalsDropped + 1) } }
      (c.travel < e.path → s.pace.arrivals.length < 12 →
        exec (.handoffFrame f) s = .next { heard s with pace := { s.pace with
          nextAccept := s.pace.nextAccept + 1, arrivals := insertArrival a s.pace.arrivals } }) ∧
      ((e.path : Int) ≤ c.travel → c.origin ≠ s.own → s.map.entries.length < 64 →
        let logged := handOff (arrivedEntry s.pos s a) { heard s with
          pace := { s.pace with nextAccept := s.pace.nextAccept + 1 }
          map := { s.map with entries := insertEntry (arrivedEntry s.pos s a) s.map.entries } }
        exec (.handoffFrame f) s = .next (if s.cfg.forming = true then
          entryInserted fire (arrivedEntry s.pos s a) logged else logged)) ∧
      ((e.path : Int) ≤ c.travel → c.origin = s.own →
        exec (.handoffFrame f) s = .next { heard s with
          pace := { s.pace with nextAccept := s.pace.nextAccept + 1 }
          map := { s.map with dropped := min 65535 (s.map.dropped + 1) } }) ∧
      (c.travel < e.path → 12 ≤ s.pace.arrivals.length →
        (light a = true → exec (.handoffFrame f) s = .next (full s.pace.arrivals)) ∧
        (∀ pre v post, light a = false → s.pace.arrivals = pre ++ v :: post → light v = true →
          (∀ x ∈ post, light x = false) →
          exec (.handoffFrame f) s = .next (full (insertArrival a (pre ++ post)))) ∧
        (light a = false → (∀ x ∈ s.pace.arrivals, light x = false) →
          ∃ t, exec (.handoffFrame f) s = .next t ∧ .handoffLost ∈ t.station.locals ∧
            t.station.peers = s.station.peers ∧ t.pace.arrivals = s.pace.arrivals ∧
            t.pace.arrivalsDropped = min 65535 (s.pace.arrivalsDropped + 1) ∧
            (.handoffLost ∉ s.station.locals → s.station.state = .run → s.station.hardHeld = false →
              t.station.state = .easing) ∧
            (.handoffLost ∉ s.station.locals → s.station.state = .ready → t.station.state = .stopped) ∧
            t.map = s.map ∧ t.length.acc = s.length.acc)))) ∧
  (∀ (s : State) (p : PackageRecord) (e : MapEntry), s.cfg.forming = true → s.openPackage = some p →
    let page := s.packagePage p.bank
    let x := min page.margin s.cfg.cutterOffset
    let withCuts (cuts : List Cut) : State := { s with former := { s.former with cuts := cuts } }
    let cut := cutAt e.position .change none none
    (e.severity = .major → e.kind ≠ .join → e.kind ≠ .change → entryInserted fire e s
      = checkPlan fire (if page.cutOutMajor = true then (cutOut fire e false s).1 else s)) ∧
    (e.severity = .minor → e.kind ≠ .join → (e.kind = .change → e.origin = 0) →
      entryInserted fire e s = s) ∧
    (e.severity = .minor → e.kind = .change → e.origin ≠ 0 →
      (e.position + s.cfg.cutterOffset ≤ s.pos →
        entryInserted fire e s = fire cut (s.pos - s.cfg.cutterOffset) 0 s) ∧
      (s.pos < e.position + s.cfg.cutterOffset →
        (s.former.cuts.length < 6 →
          entryInserted fire e s = withCuts (cutPlaced (firmed x s.pos cut) s.former.cuts)) ∧
        (∀ pre q post, s.former.cuts.length = 6 → s.former.cuts = pre ++ q :: post →
          (∀ r ∈ pre, r.purpose ≠ .packageEnd) → q.purpose = .packageEnd →
          entryInserted fire e s = withCuts (cutPlaced (firmed x s.pos cut) (pre ++ post))) ∧
        (6 ≤ s.former.cuts.length → (∀ r ∈ s.former.cuts, r.purpose ≠ .packageEnd) →
          entryInserted fire e s = { s with former := { s.former with
            cutsRefused := min 65535 (s.former.cutsRefused + 1) } }))))

/-- A PKG and an ANSWER are taken without action (R188). A frame of any of the kinds 1 to 8 from this
station's own number, for all stations or for this one, is counted in `number_clash` and acts no further
(R188); like any frame that passes the length, check and kind tests it clears the normal hold (R182; log
entry 20). -/
def Obligations.PkgAndAnswerFramesAreTakenWithoutAction : Prop :=
  ∀ (s : State) (f : RxFrame) (a : Ask) (request : Byte),
    let clash : Host.Outcome State Fault Refusal := .next { heard s with ply := { (heard s).ply with
      numberClash := min 65535 (s.ply.numberClash + 1) } }
    (hears f.sender f.dest s → f.payload.length = 19 → exec (.pkgFrame f) s = .next (heard s)) ∧
    (hears f.sender f.dest s → 4 ≤ f.payload.length → f.payload.length ≤ 24 →
      exec (.answerFrame f) s = .next (heard s)) ∧
    (clashes f.sender f.dest s →
      (f.payload.length = 24 → exec (.paceFrame f) s = clash) ∧
      (f.payload.length = 2 → exec (.haltFrame f) s = clash) ∧
      (f.payload.length = 1 → exec (.resumeFrame f) s = clash ∧ exec (.goFrame f) s = clash) ∧
      (f.payload.length = 12 → exec (.handoffFrame f) s = clash) ∧
      (f.payload.length = 19 → exec (.pkgFrame f) s = clash) ∧
      (4 ≤ f.payload.length → f.payload.length ≤ 24 → exec (.answerFrame f) s = clash)) ∧
    (clashes a.head.sender a.head.dest s → exec (.askClearForce a.head) s = clash ∧
      (a.args.length ≤ 22 → ∀ c ∈ [Instr.askStatus a, .askLine a, .askPeers a, .askMap a, .askPackage a,
          .askBankRead a, .askBankWrite a, .askRun a, .askChange a, .askGo a, .askStop a, .askClear a,
          .askEnd a, .askRestart a, .askUnknown request a],
        exec c s = clash))

/-! ## Requests (section 9.6) -/

/-- The reading requests change nothing but the line. STATUS(page) of 0 to 12 is answered DONE with the
station state as detail and the page in its layout, page 0 with the operand omitted, and LINE with the six
counts and the first error, cleared afterwards when clear is 1, in every state; PEERS, MAP, PACKAGE and
BANK_READ are answered in the running service with the record in its layout, what is not there being refused
with NOT_FOUND, NOT_FORMING or BANK_EMPTY (R85, R112, R119, R147, R178, R189, R192, R193, R194, R195, R204).
The length so far of an OPEN record is log entry 11's, and the low 16 bits of a defect item's offset above
65,535 m are log entry 60's; the low 32 bits of a pending cut's position above 4,294,967,295 are the model's
choice (log entry 62). -/
def Obligations.ReadRequestsAreAnsweredFromTheState : Prop :=
  ∀ (s : State) (h : AskHead), asked h s →
    let status (page : Nat) : State := answered h 1 0 (BitVec.ofNat 8 (Code.stationState s.station.state))
      (coded (statusLayout s page)) s
    let line := coded (lineLayout s.ply)
    exec (.askStatus ⟨h, []⟩) s = .next (status 0) ∧
    (∀ page : Byte, page.toNat ≤ 12 → exec (.askStatus ⟨h, [page]⟩) s = .next (status page.toNat)) ∧
    (∀ page : Byte, 12 < page.toNat →
      exec (.askStatus ⟨h, [page]⟩) s = .next (answered h 1 2 5 [] s)) ∧
    exec (.askLine ⟨h, []⟩) s = .next (answered h 2 0 0 line s) ∧
    exec (.askLine ⟨h, [0]⟩) s = .next (answered h 2 0 0 line s) ∧
    exec (.askLine ⟨h, [1]⟩) s = .next (answered h 2 0 0 line
      { s with ply := { s.ply with
          lineErrors := 0, numberClash := 0, asksDropped := 0, collisions := 0, collisionDrops := 0
          queueDrops := 0, firstError := none } }) ∧
    (serving s →
      (∀ (i page : Byte) (lt : i.toNat < 6), page.toNat ≤ 2 →
        let e := s.pace.listen[i.toNat]
        (e.status = .unused → exec (.askPeers ⟨h, [i, page]⟩) s = .next (answered h 3 2 4 [] s)) ∧
        (e.status ≠ .unused →
          exec (.askPeers ⟨h, [i, page]⟩) s = .next (answered h 3 0 0 (peerLayout e page.toNat) s) ∧
          exec (.askPeers ⟨h, [i]⟩) s = .next (answered h 3 0 0 (peerLayout e 0) s))) ∧
      (∀ i : Byte, exec (.askMap ⟨h, [i]⟩) s = .next (match s.map.entries[i.toNat]? with
        | some e => answered h 4 0 (BitVec.ofNat 8 s.map.entries.length) (coded (entryLayout e)) s
        | none => answered h 4 2 4 [] s)) ∧
      (∀ hi lo page : Byte, page.toNat ≤ 3 → exec (.askPackage ⟨h, [hi, lo, page]⟩) s = .next (
        if s.cfg.forming = false then answered h 5 2 6 [] s
        else match s.former.table.find? (fun r => r.number == hi.toNat * 256 + lo.toNat) with
          | some r => answered h 5 0 (BitVec.ofNat 8 (packageDetail r page.toNat))
              (coded (packageLayout s.pos r page.toNat)) s
          | none => answered h 5 2 4 [] s)) ∧
      (∀ k page : Byte, k.toNat ≤ 3 → page.toNat ≤ 2 →
        exec (.askBankRead ⟨h, [k, page]⟩) s = .next (match bankLayout (s.bank k.toNat) page.toNat with
          | some fields => answered h 6 0 (BitVec.ofNat 8 (Code.bankState (s.bank k.toNat).state))
              (coded fields) s
          | none => answered h 6 2 2 [BitVec.ofNat 8 (Code.bankState (s.bank k.toNat).state)] s)))

/-- BANK_WRITE: operands that do not fit, a k or page out of range, a length that is not the page's or a
choice field of no valid code, are refused with MALFORMED and write nothing (R117, R118, R195). A bank
ACTIVE or STAGED is refused with BANK_IN_USE. Otherwise every field of the page is clamped to its range,
tolX against the stored tolM, the page is stored, a bank whose three pages are then written becomes LOADED,
and the answer counts the clamped fields (R117). The recipe image of the configuration block spells the
three pages of a LOADED bank in the same coding; clamped fields and choice fields of no valid code count as
replaced there (R116, R201). -/
def Obligations.BankWriteStoresAClampedPage : Prop :=
  (∀ (s : State) (h : AskHead) (args : List Byte), asked h s → args.length ≤ 22 →
    operandsFit 7 args = false → exec (.askBankWrite ⟨h, args⟩) s = .next (answered h 7 2 5 [] s)) ∧
  (∀ (s : State) (h : AskHead) (k page : Byte) (bytes : List Byte), asked h s → serving s →
    operandsFit 7 (k :: page :: bytes) = true →
    let old := s.bank k.toNat
    let written : Bank × Nat := match page.toNat with
      | 0 => ({ old with twist := some (twistWritten bytes).1 }, (twistWritten bytes).2)
      | 1 => ({ old with knot := some (knotWritten bytes).1 }, (knotWritten bytes).2)
      | _ => ({ old with package := some (packageWritten bytes).1 }, (packageWritten bytes).2)
    ((old.state = .active ∨ old.state = .staged) →
      exec (.askBankWrite ⟨h, k :: page :: bytes⟩) s = .next (answered h 7 2 3 [] s)) ∧
    ((old.state = .empty ∨ old.state = .loaded) →
      exec (.askBankWrite ⟨h, k :: page :: bytes⟩) s = .next (answered h 7 (if written.2 = 0 then 0 else 1)
        (BitVec.ofNat 8 written.2) [] (s.setBank k.toNat { written.1 with
          state := if old.state = .empty ∧ written.1.twist.isSome = true ∧ written.1.knot.isSome = true
              ∧ written.1.package.isSome = true
            then .loaded else old.state })))) ∧
  (∀ image : List Byte, 128 ≤ image.length →
    imageBank image = {
      state := .loaded, twist := some (twistWritten (image.drop 83)).1
      knot := some (knotWritten (image.drop 93)).1, package := some (packageWritten (image.drop 104)).1 } ∧
    imageReplaced image = (twistWritten (image.drop 83)).2
      + (knotWritten (image.drop 93)).2 + (packageWritten (image.drop 104)).2
      + ([96, 103].countP (fun i => at1 image i ≠ 1 ∧ at1 image i ≠ 2))
      + ([119, 120].countP (fun i => 1 < at1 image i)))

/-- CHANGE(k) of a LOADED bank stages it, an earlier STAGED bank returning to LOADED, on every station but a
PLAIN one that forms no packages; an ACTIVE bank is refused with BANK_IN_USE, an EMPTY one with BANK_EMPTY,
and without a run the request is refused with STATE (R121). On such a PLAIN station the switch is made at
once. A switch makes the bank ACTIVE and the earlier one LOADED, logs a CHANGE at its position, handed off,
and gives each kind its part: a LAYING station starts its results and, under another target10, its trim
again, with eff10 by the balance of the feeders (R35, R36); a NETTING station its runs and references; the
marks of a station that forms no packages take the new
interval, to the next whole multiple from an interval of 0 (R16, R42, R64, R121, R124). -/
def Obligations.ChangeRequestStagesALoadedBank : Prop :=
  ∀ (s : State) (h : AskHead) (k : Byte), k.toNat ≤ 3 →
    let interval := (s.packagePage k.toNat).markInterval
    let active (t : State) : Prop :=
      t.bank k.toNat = { s.bank k.toNat with state := .active } ∧
      (∀ j, j ≠ k.toNat → t.bank j = (if (s.bank j).state = .active
        then { s.bank j with state := .loaded } else s.bank j))
    let marks : Marks :=
      if interval = 0 then { s.marks with interval := 0, next := none }
      else if s.marks.interval = 0 then { s.marks with
        interval := interval
        next := some ((s.pos / (interval * 1000) + 1) * (interval * 1000))
        counter := (s.pos / (interval * 1000) + 1) * interval % 100000 }
      else { s.marks with interval := interval }
    let change (position : Nat) : MapEntry := { closedPoint .change position with lastLocal := false }
    (asked h s → serving s →
      (s.inRun = false → exec (.askChange ⟨h, [k]⟩) s = .next (answered h 9 2 1 [] s)) ∧
      (s.inRun = true → (s.bank k.toNat).state = .empty →
        exec (.askChange ⟨h, [k]⟩) s = .next (answered h 9 2 2 [] s)) ∧
      (s.inRun = true → (s.bank k.toNat).state = .active →
        exec (.askChange ⟨h, [k]⟩) s = .next (answered h 9 2 3 [] s)) ∧
      (s.inRun = true → (s.bank k.toNat).state = .staged →
        exec (.askChange ⟨h, [k]⟩) s = .next (answered h 9 0 0 [] s)) ∧
      (s.inRun = true → BankLawful s → (s.bank k.toNat).state = .loaded →
        (s.cfg.kind ≠ .plain ∨ s.cfg.forming = true) →
        ∃ t, exec (.askChange ⟨h, [k]⟩) s = .next t ∧
          t.bank k.toNat = { s.bank k.toNat with state := .staged } ∧
          (∀ j, j ≠ k.toNat → t.bank j = (if (s.bank j).state = .staged
            then { s.bank j with state := .loaded } else s.bank j)) ∧
          t.ply = (answered h 9 0 0 [] s).ply ∧ t.station = s.station ∧ t.twist = s.twist ∧
          t.knot = s.knot ∧ t.map = s.map ∧ t.former = s.former ∧ t.marks = s.marks) ∧
      (s.inRun = true → BankLawful s → (s.bank k.toNat).state = .loaded → s.cfg.kind = .plain →
        s.cfg.forming = false → s.stagedBank = none → s.map.entries.length < 64 →
        let takers := s.pace.listen.toList.filter (fun p => p.status == .peer && p.role == .take)
        s.ply.queue.length + takers.length ≤ 7 →
        ∃ t, exec (.askChange ⟨h, [k]⟩) s = .next t ∧ active t ∧ t.marks = marks ∧
          t.map = { s.map with entries := insertEntry (change s.pos) s.map.entries } ∧
          t.ply = { (answered h 9 0 0 [] s).ply with
            queue := s.ply.queue ++ takers.map (fun p => fresh (.handoff {
              dest := p.number, kind := .change, origin := s.own, severity := .minor, count := 1
              extent := 0, entryEnd := s.pos, travel := 0 })) ++ [answerTo h 9 0 0 []] } ∧
          t.station = s.station ∧ t.length = s.length ∧ t.twist = s.twist ∧ t.knot = s.knot ∧
          t.former = s.former ∧ t.pace = s.pace)) ∧
    (∀ position : Nat, BankLawful s → s.inRun = true → s.map.entries.length < 64 →
      (∀ e ∈ s.map.entries, e.isOpen = false) →
      (s.bank k.toNat).state = .loaded ∨ (s.bank k.toNat).state = .staged →
      let t := (switchBank k.toNat position s).1
      active t ∧ t.map = { s.map with entries := insertEntry (change position) s.map.entries } ∧
      t.marks = (if s.cfg.forming = true then s.marks else marks) ∧
      (s.cfg.kind ≠ .laying → t.twist = s.twist) ∧
      (s.cfg.kind = .laying →
        let page := (s.bank k.toNat).twist.getD .absent
        t.twist.trim = (if page.target10 = s.twistPage.target10 then s.twist.trim else 0) ∧
        t.twist.lastT10 = none ∧ t.twist.lastD10 = 0 ∧ t.twist.lastE = none ∧ t.twist.lastClass = none ∧
        t.twist.windowCount = 0 ∧ t.twist.offRun = 0 ∧ t.twist.offMajor = false ∧ t.twist.majorRun = 0 ∧
        t.twist.eff10 = some (aimOf page.target10 s) ∧
        t.twist.ownOffer = min s.cfg.ownLimit (s.cfg.smax * 100000
          / (aimOf page.target10 s * (1000 + t.twist.trim).toNat)) ∧
        t.twist.pulses = 0 ∧ t.twist.width = 0 ∧ t.twist.windowOpen = s.station.state.driven ∧
        (s.station.state.driven = true → t.twist.windowStart = s.pos) ∧ t.twist.sCmd = s.twist.sCmd) ∧
      (s.cfg.kind ≠ .netting → t.knot = s.knot) ∧
      (s.cfg.kind = .netting → t.knot = { s.knot with
        knotRun := 0, knotMajor := false, meshRun := 0, firstRef := none, prevAdvance := none
        counters := Vector.ofFn (fun i : Fin 8 =>
          if i.val < ((s.bank k.toNat).knot.getD .absent).sections then s.knot.counters[i.val] else 0) }) ∧
      t.station = s.station ∧ t.length = s.length ∧ t.former = s.former ∧ t.pace = s.pace)

/-- GO in READY runs the station, queues GO with its own number and then the ANSWER; elsewhere it is refused
with STATE (R152). STOP(SOFT) raises REQUEST_STOP and STOP(HARD) LOCAL_STOP while a run exists, answered
DONE, and is refused with STATE elsewhere (R153, R163). -/
def Obligations.GoAndStopRequestsActOnTheStationState : Prop :=
  ∀ (s : State) (h : AskHead), asked h s → serving s →
    (s.station.state ≠ .ready → exec (.askGo ⟨h, []⟩) s = .next (answered h 10 2 1 [] s)) ∧
    (s.station.state = .ready → s.ply.queue.length + 2 ≤ 8 →
      ∃ t, exec (.askGo ⟨h, []⟩) s = .next t ∧
        t.station = { s.station with state := .run, den := true } ∧
        t.ply.queue = s.ply.queue ++ [fresh (.go s.own), answerTo h 10 0 0 []] ∧
        t.length = { s.length with dwellCount := s.cfg.dwellTime * 10 } ∧ t.map = s.map ∧
        t.former = s.former ∧ t.banks = s.banks) ∧
    (∀ l : Level, s.inRun = false →
      exec (.askStop ⟨h, [BitVec.ofNat 8 (Code.level l)]⟩) s = .next (answered h 11 2 1 [] s)) ∧
    (∀ l : Level, s.inRun = true → StationLawful s →
      let c := if l = .hard then LocalCause.localStop else .requestStop
      ∃ t, exec (.askStop ⟨h, [BitVec.ofNat 8 (Code.level l)]⟩) s = .next t ∧
        c ∈ t.station.locals ∧ (∀ x ∈ s.station.locals, x ∈ t.station.locals) ∧
        t.station.alm = true ∧ t.ply.queue.getLast? = some (answerTo h 11 0 0 []) ∧
        (c ∈ s.station.locals → t = answered h 11 0 0 [] s) ∧
        (c ∉ s.station.locals → t.station.state = (match s.station.state, l with
          | .run, .soft => .easing
          | .easing, .soft => .easing
          | _, _ => .stopped)) ∧
        t.length.acc = s.length.acc ∧ t.start = s.start)

/-- CLEAR removes the local causes that may be removed, CLEAR FORCE also every peer record; the emptied set
takes EASING to RUN and STOPPED to READY with ALM off; a removal that leaves no local cause of those held
queues RESUME with this station's number before the ANSWER; either is answered DONE, with nothing held too
(R154, R156, R166, R167, R168). -/
def Obligations.ClearRequestsEmptyTheCauseSet : Prop :=
  ∀ (s : State) (h : AskHead), asked h s → serving s → StationLawful s →
    s.ply.queue.length + 2 ≤ 8 →
    let kept := s.station.locals.filter (fun c => match c with
      | .brk => s.station.brkActive
      | .mapFull => decide (64 ≤ s.map.entries.length)
      | .runLimit => true
      | _ => false)
    let cleared (peers : List PeerHalt) (t : State) : Prop :=
      t.station.locals = kept ∧ t.station.peers = peers ∧
      t.ply.queue = s.ply.queue ++ (if s.station.locals ≠ [] ∧ kept = [] then [fresh (.resume s.own)] else [])
        ++ [answerTo h 12 0 0 []] ∧
      t.station.state = (if kept = [] ∧ peers = [] then
          (match s.station.state with
            | .easing => .run
            | .stopped => .ready
            | other => other) else s.station.state) ∧
      t.station.alm = (if kept = [] ∧ peers = [] then false else true) ∧
      t.map = s.map ∧ t.former = s.former ∧ t.banks = s.banks ∧ t.twist = s.twist ∧
      t.length.acc = s.length.acc ∧ t.pace.run = s.pace.run
    (∃ t, exec (.askClear ⟨h, []⟩) s = .next t ∧ cleared s.station.peers t) ∧
    (∃ t, exec (.askClearForce h) s = .next t ∧ cleared [] t)

/-- END in READY or STOPPED ends the run: the cause set is emptied, the first cause moves on, ACTIVE and
STAGED banks return to LOADED, the arrivals and the cut list are emptied, the open package is closed with
reason END, and the station is IDLE with DEN and ALM off; elsewhere it is refused with STATE (R111, R125,
R146, R157). The PKG frames of UNSENT records and of the package (R93), RESUME with this station's number when
a local cause was held, and
the ANSWER are queued in this order (R110, R157, R168). -/
def Obligations.EndRequestEndsTheRun : Prop :=
  ∀ (s : State) (h : AskHead), asked h s → serving s →
    (s.station.state ≠ .ready → s.station.state ≠ .stopped →
      exec (.askEnd ⟨h, []⟩) s = .next (answered h 13 2 1 [] s)) ∧
    ((s.station.state = .ready ∨ s.station.state = .stopped) →
      ∃ t, exec (.askEnd ⟨h, []⟩) s = .next t ∧ t.station.state = .idle ∧ t.station.den = false ∧
        t.station.alm = false ∧ t.station.locals = [] ∧ t.station.peers = [] ∧
        t.station.firstCause = none ∧ t.station.prevFirst = s.station.firstCause ∧
        t.banks = s.banks.map (fun b =>
          if b.state = .active ∨ b.state = .staged then { b with state := .loaded } else b) ∧
        t.pace.arrivals = [] ∧ (s.openPackage.isSome = true → t.former.cuts = []) ∧
        t.openPackage = none ∧
        (∀ p, s.openPackage = some p → ∃ r ∈ t.former.table,
          r.number = p.number ∧ r.reason = some .endRun ∧ r.state = .closed ∧
          r.endPos = some (max p.startPos (match s.former.cuts with
            | c :: _ => min s.pos c.position
            | [] => s.pos))) ∧
        t.length.acc = s.length.acc ∧ t.twist = s.twist ∧ t.knot = s.knot ∧
        t.ply.queue.getLast? = some (answerTo h 13 0 0 []) ∧
        (s.ply.queue.length + (unsentOf s.former.table).length + 3 ≤ 8 →
          t.ply.queue = s.ply.queue
            ++ (match s.openPackage with
              | some p =>
                let k := max p.startPos (match s.former.cuts with
                  | c :: _ => min s.pos c.position
                  | [] => s.pos)
                let closed := p.close (s.packagePage p.bank) k .endRun s.map.entries
                (unsentOf s.former.table).map pkgFrame ++ [pkgFrame closed]
              | none => [])
            ++ (if s.station.locals ≠ [] then [fresh (.resume s.own)] else [])
            ++ [answerTo h 13 0 0 []]))

/-- RESTART in IDLE or HELD is accepted: restart pending is set and the ANSWER DONE is queued, marked as the
one whose going makes the warm restart; in another state it is refused with STATE (R158). An ASK whose
request code is not 1 to 14, or whose operands do not fit it, is refused with MALFORMED in every state
(R190). One that fits is refused with STATE in HELD and while a restart pends, but for STATUS, LINE and, in
HELD, a first RESTART (R158, R203). With 8 frames queued an ASK to this station is counted in `asks_dropped`
and has no effect (R191). An ASK to all stations gets no ANSWER: GO, STOP and CLEAR act as STA in READY,
STP, and CLR do, CLEAR FORCE on the peer records too, and are set aside where they do not apply and in HELD;
any other is counted in `asks_dropped` (R191). That one of the three with operands that do not fit is set aside
uncounted, and that another is counted in HELD too, is log entry 22's reading. -/
def Obligations.RestartAndUnknownRequestsAreAnswered : Prop :=
  ∀ (s : State) (h : AskHead),
    let lost := { heard s with ply := { (heard s).ply with asksDropped := min 65535 (s.ply.asksDropped + 1) } }
    (asked h s → s.station.restartPending = false →
      ((s.station.state = .idle ∨ s.station.state = .held) →
        exec (.askRestart ⟨h, []⟩) s = .next { s with
          station := { s.station with restartPending := true, answerGone := false }
          ply := { s.ply with
            idle := 2, hold := false, placeHeld := false
            queue := s.ply.queue ++ [fresh (.answer h.sender.toNat [h.tag, 14, 0, 0] true)] } }) ∧
      (s.station.state ≠ .idle → s.station.state ≠ .held →
        exec (.askRestart ⟨h, []⟩) s = .next (answered h 14 2 1 [] s)) ∧
      (∀ (code : Byte) (args : List Byte), WellFormed.unknownRequest code = true → args.length ≤ 22 →
        exec (.askUnknown code ⟨h, args⟩) s = .next (answered h code 2 5 [] s))) ∧
    (∀ (code : Byte) (args : List Byte), args.length ≤ 22 →
      (asked h s →
        (operandsFit code args = false →
          exec (askOf code ⟨h, args⟩) s = .next (answered h code 2 5 [] s)) ∧
        (operandsFit code args = true → code ≠ 1 → code ≠ 2 →
          (s.station.restartPending = true ∨ (s.station.state = .held ∧ code ≠ 14)) →
          exec (askOf code ⟨h, args⟩) s = .next (answered h code 2 1 [] s))) ∧
      (hears h.sender h.dest s → h.dest ≠ 0 → 8 ≤ s.ply.queue.length →
        exec (askOf code ⟨h, args⟩) s = .next lost) ∧
      (hears h.sender h.dest s → h.dest = 0 →
        (code ≠ 10 → code ≠ 11 → code ≠ 12 → exec (askOf code ⟨h, args⟩) s = .next lost) ∧
        ((code = 10 ∨ code = 11 ∨ code = 12) →
          (operandsFit code args = false ∨ s.station.state = .held ∨ (code = 10 ∧ s.station.state ≠ .ready)
            ∨ (code = 11 ∧ s.inRun = false) ∨ (code = 12 ∧ s.station.setEmpty = true)) →
          exec (askOf code ⟨h, args⟩) s = .next (heard s)))) ∧
    (hears h.sender h.dest s → h.dest = 0 →
      (s.station.state = .ready → exec (.askGo ⟨h, []⟩) s = exec .staEdge (heard s)) ∧
      (s.inRun = true →
        exec (.askStop ⟨h, [1]⟩) s = exec .stpEdge (heard s) ∧
        (.requestStop ∉ s.station.locals → StationLawful s → ∃ t, exec (.askStop ⟨h, [2]⟩) s = .next t ∧
          t.station.locals = s.station.locals ++ [.requestStop] ∧ t.station.alm = true ∧
          t.station.state = (match s.station.state with
            | .run => .easing
            | .easing => .easing
            | _ => .stopped)) ∧
        exec (.askClear ⟨h, []⟩) s = exec .clrEdge (heard s) ∧
        exec (.askClear ⟨h, [0]⟩) s = exec .clrEdge (heard s) ∧
        (s.station.setEmpty = false → ∃ t, exec (.askClearForce h) s = .next t ∧ t.station.peers = [] ∧
          t.station.locals = s.station.locals.filter (fun c => match c with
            | .brk => s.station.brkActive
            | .mapFull => decide (64 ≤ s.map.entries.length)
            | .runLimit => true
            | _ => false))))

/-! ## Laws of the device -/

/-- The state after reset is lawful. -/
def Obligations.ResetStateIsLawful : Prop := Lawful State.reset

/-- Every step keeps the laws of station control: DEN is on exactly in RUN and EASING and never while a HARD
cause is held; the cause set is empty in READY and RUN and not in EASING and STOPPED; ALM and the first
cause follow it (R153, R159, R160, R165). -/
def Obligations.StepsKeepTheStationLaws : Prop :=
  ∀ s t : State, StationLawful s → step s = .next t → StationLawful t

/-- Every step keeps at most 8 peer halt records, each origin once and never this station's, and each local
cause at most once (R161, R170); and it keeps the capacities of the cut list, the pending arrivals and the
transmit queue (R94, R140, R184), and the cut list in ascending order of position, equals in the order of
their placement (R94; a moved plan keeps its own, log entry 59, as does a moved SCRAP_END). -/
def Obligations.StepsKeepTheHaltRecordsAndTheCapacities : Prop :=
  ∀ s t : State, step s = .next t →
    (HaltsLawful s → HaltsLawful t) ∧ (CapacityLawful s → CapacityLawful t) ∧ (CutsLawful s → CutsLawful t)

/-- Every step keeps the run map at 64 entries at most, in non-decreasing order of position (R68). -/
def Obligations.StepsKeepTheMapInOrder : Prop :=
  ∀ s t : State, MapLawful s → step s = .next t → MapLawful t

/-- Every step keeps trim in −200..+200, the commanded spindle rate in 0..Smax, and the own offer and run
pace within the own pace limit (R33, R38, R40, R135). -/
def Obligations.StepsKeepTheLimits : Prop :=
  ∀ s t : State, LimitsLawful s → step s = .next t → LimitsLawful t

/-- Every step keeps at most 16 records in the package table with exactly one OPEN while a run exists on a
forming station (R91, R92, R111). -/
def Obligations.StepsKeepOneOpenPackage : Prop :=
  ∀ s t : State, PackageLawful s → step s = .next t → PackageLawful t

/-- Every step keeps exactly one bank ACTIVE while a run exists, and at most one STAGED (R115, R125). -/
def Obligations.StepsKeepOneActiveBank : Prop :=
  ∀ s t : State, BankLawful s → step s = .next t → BankLawful t

/-- No command but a cold reset makes a transition of the station state outside the table of section 8.1
(R151 to R158), and DEN follows the state at the transition (R159). One command may make two transitions:
RUN(k) and STA in IDLE with BRK active pass IDLE to READY and READY to STOPPED (R151). -/
def Obligations.StationStateFollowsTheTransitionTable : Prop :=
  ∀ (c : Instr) (s t : State), StationLawful s → runBounds s → c ≠ .coldReset → exec c s = .next t →
    transition s.station.state t.station.state = true ∧ t.station.den = t.station.state.driven

/-- Within a run the run position never decreases (R1). -/
def Obligations.PositionNeverDecreasesInARun : Prop :=
  ∀ (c : Instr) (s t : State), exec c s = .next t → s.length.acc ≤ 4294967295999 → s.inRun = true →
    t.inRun = true → s.length.acc ≤ t.length.acc ∧ s.pos ≤ t.pos

/-! ## Encodings (R177, R178, R179, R195) -/

/-- The PACE payload of a report spells that report (R178), and the HANDOFF payload of a copy its fields
(R179). -/
def Obligations.PaceAndHandoffPayloadsReadBack : Prop :=
  (∀ r : PaceReport, reportFits r → r.payload.length = 24 ∧ readPace r.payload = some r) ∧
  (∀ c : HandoffCopy, copyFits c → c.payload.length = 12 ∧
    readHandoff c.payload = some { kind := c.kind, origin := c.origin, severity := c.severity,
                                   count := c.count, extent := c.extent, travel := c.travel })

/-- A frame of the part's own passes the length and check tests and spells its kind, sender, destination and
payload (R176, R187). Byte 0 carries the kind with bit 7 set for HALT, RESUME and GO, and each kind its payload
in the manual's layout and its destination (R176, R178 to R180). A byte goes out as start bit low, 8 data bits
least significant first, stop bit high, and is taken by its data bits alone (R175). -/
def Obligations.OwnFramesPassTheReceiveTests : Prop :=
  (∀ (top kind : BitVec 4) (sender dest : Byte) (payload : List Byte), payload.length ≤ 24 →
    lengthFails (frameBytes top kind sender dest payload) = false ∧
    checkFails (frameBytes top kind sender dest payload) = false ∧
    frameOf (frameBytes top kind sender dest payload) =
      (kind, { top := top, sender := sender, dest := dest, payload := payload })) ∧
  (∀ (own origin dest : Nat) (l : Level) (c : HandoffCopy) (p : PkgSummary) (r : PaceReport)
      (bytes : List Byte) (restart : Bool),
    (TxBody.halt origin l).bytes own = framed 0x82 own 0 (coded [num 1 origin, num 1 (match l with
      | .hard => 1
      | .soft => 2)]) ∧
    (TxBody.resume origin).bytes own = framed 0x83 own 0 (coded [num 1 origin]) ∧
    (TxBody.go origin).bytes own = framed 0x84 own 0 (coded [num 1 origin]) ∧
    (TxBody.handoff c).bytes own = framed 0x05 own c.dest (coded (copyLayout c)) ∧
    (TxBody.pkg p).bytes own = framed 0x06 own 0 (coded (pkgLayout p)) ∧
    (TxBody.answer dest bytes restart).bytes own = framed 0x08 own dest bytes ∧
    (reportFits r → r.bytes own = framed 0x01 own 0 (coded (reportLayout r)))) ∧
  (∀ (b : Byte) (c : LineByte),
    (LineByte.send b).getLsbD 0 = false ∧ (LineByte.send b).getLsbD 9 = true ∧
    (∀ i, i < 8 → (LineByte.send b).getLsbD (i + 1) = b.getLsbD i ∧ c.data.getLsbD i = c.getLsbD (i + 1)) ∧
    (LineByte.send b).data = b)
end

