-- ==== Sys2Proof/Laws/State.lean ====
section
/-!
SUPPORT. One lemma per block and block update of `State`, so that no proof unfolds a record update.
-/

namespace Sys2Proof.Machine

/-- The table helper is the vector's own map. -/
@[simp] theorem mapTable_eq_map (f : α → α) (table : Vector α n) : mapTable f table = table.map f := by
  ext i h
  simp [mapTable, Vector.get]

namespace State

variable (s : State)

@[simp] theorem setStart_start (b : StartBlock) : (s.setStart b).start = b := rfl
@[simp] theorem setStart_station (b : StartBlock) : (s.setStart b).station = s.station := rfl
@[simp] theorem setStart_length (b : StartBlock) : (s.setStart b).length = s.length := rfl
@[simp] theorem setStart_marks (b : StartBlock) : (s.setStart b).marks = s.marks := rfl
@[simp] theorem setStart_twist (b : StartBlock) : (s.setStart b).twist = s.twist := rfl
@[simp] theorem setStart_knot (b : StartBlock) : (s.setStart b).knot = s.knot := rfl
@[simp] theorem setStart_map (b : StartBlock) : (s.setStart b).map = s.map := rfl
@[simp] theorem setStart_former (b : StartBlock) : (s.setStart b).former = s.former := rfl
@[simp] theorem setStart_banks (b : StartBlock) : (s.setStart b).banks = s.banks := rfl
@[simp] theorem setStart_pace (b : StartBlock) : (s.setStart b).pace = s.pace := rfl
@[simp] theorem setStart_ply (b : StartBlock) : (s.setStart b).ply = s.ply := rfl
@[simp] theorem setStart_pending (b : StartBlock) : (s.setStart b).pending = s.pending := rfl

@[simp] theorem setStation_start (b : Station) : (s.setStation b).start = s.start := rfl
@[simp] theorem setStation_station (b : Station) : (s.setStation b).station = b := rfl
@[simp] theorem setStation_length (b : Station) : (s.setStation b).length = s.length := rfl
@[simp] theorem setStation_marks (b : Station) : (s.setStation b).marks = s.marks := rfl
@[simp] theorem setStation_twist (b : Station) : (s.setStation b).twist = s.twist := rfl
@[simp] theorem setStation_knot (b : Station) : (s.setStation b).knot = s.knot := rfl
@[simp] theorem setStation_map (b : Station) : (s.setStation b).map = s.map := rfl
@[simp] theorem setStation_former (b : Station) : (s.setStation b).former = s.former := rfl
@[simp] theorem setStation_banks (b : Station) : (s.setStation b).banks = s.banks := rfl
@[simp] theorem setStation_pace (b : Station) : (s.setStation b).pace = s.pace := rfl
@[simp] theorem setStation_ply (b : Station) : (s.setStation b).ply = s.ply := rfl
@[simp] theorem setStation_pending (b : Station) : (s.setStation b).pending = s.pending := rfl

@[simp] theorem setLength_start (b : Length) : (s.setLength b).start = s.start := rfl
@[simp] theorem setLength_station (b : Length) : (s.setLength b).station = s.station := rfl
@[simp] theorem setLength_length (b : Length) : (s.setLength b).length = b := rfl
@[simp] theorem setLength_marks (b : Length) : (s.setLength b).marks = s.marks := rfl
@[simp] theorem setLength_twist (b : Length) : (s.setLength b).twist = s.twist := rfl
@[simp] theorem setLength_knot (b : Length) : (s.setLength b).knot = s.knot := rfl
@[simp] theorem setLength_map (b : Length) : (s.setLength b).map = s.map := rfl
@[simp] theorem setLength_former (b : Length) : (s.setLength b).former = s.former := rfl
@[simp] theorem setLength_banks (b : Length) : (s.setLength b).banks = s.banks := rfl
@[simp] theorem setLength_pace (b : Length) : (s.setLength b).pace = s.pace := rfl
@[simp] theorem setLength_ply (b : Length) : (s.setLength b).ply = s.ply := rfl
@[simp] theorem setLength_pending (b : Length) : (s.setLength b).pending = s.pending := rfl

@[simp] theorem setMarks_start (b : Marks) : (s.setMarks b).start = s.start := rfl
@[simp] theorem setMarks_station (b : Marks) : (s.setMarks b).station = s.station := rfl
@[simp] theorem setMarks_length (b : Marks) : (s.setMarks b).length = s.length := rfl
@[simp] theorem setMarks_marks (b : Marks) : (s.setMarks b).marks = b := rfl
@[simp] theorem setMarks_twist (b : Marks) : (s.setMarks b).twist = s.twist := rfl
@[simp] theorem setMarks_knot (b : Marks) : (s.setMarks b).knot = s.knot := rfl
@[simp] theorem setMarks_map (b : Marks) : (s.setMarks b).map = s.map := rfl
@[simp] theorem setMarks_former (b : Marks) : (s.setMarks b).former = s.former := rfl
@[simp] theorem setMarks_banks (b : Marks) : (s.setMarks b).banks = s.banks := rfl
@[simp] theorem setMarks_pace (b : Marks) : (s.setMarks b).pace = s.pace := rfl
@[simp] theorem setMarks_ply (b : Marks) : (s.setMarks b).ply = s.ply := rfl
@[simp] theorem setMarks_pending (b : Marks) : (s.setMarks b).pending = s.pending := rfl

@[simp] theorem setTwist_start (b : Twist) : (s.setTwist b).start = s.start := rfl
@[simp] theorem setTwist_station (b : Twist) : (s.setTwist b).station = s.station := rfl
@[simp] theorem setTwist_length (b : Twist) : (s.setTwist b).length = s.length := rfl
@[simp] theorem setTwist_marks (b : Twist) : (s.setTwist b).marks = s.marks := rfl
@[simp] theorem setTwist_twist (b : Twist) : (s.setTwist b).twist = b := rfl
@[simp] theorem setTwist_knot (b : Twist) : (s.setTwist b).knot = s.knot := rfl
@[simp] theorem setTwist_map (b : Twist) : (s.setTwist b).map = s.map := rfl
@[simp] theorem setTwist_former (b : Twist) : (s.setTwist b).former = s.former := rfl
@[simp] theorem setTwist_banks (b : Twist) : (s.setTwist b).banks = s.banks := rfl
@[simp] theorem setTwist_pace (b : Twist) : (s.setTwist b).pace = s.pace := rfl
@[simp] theorem setTwist_ply (b : Twist) : (s.setTwist b).ply = s.ply := rfl
@[simp] theorem setTwist_pending (b : Twist) : (s.setTwist b).pending = s.pending := rfl

@[simp] theorem setKnot_start (b : Knot) : (s.setKnot b).start = s.start := rfl
@[simp] theorem setKnot_station (b : Knot) : (s.setKnot b).station = s.station := rfl
@[simp] theorem setKnot_length (b : Knot) : (s.setKnot b).length = s.length := rfl
@[simp] theorem setKnot_marks (b : Knot) : (s.setKnot b).marks = s.marks := rfl
@[simp] theorem setKnot_twist (b : Knot) : (s.setKnot b).twist = s.twist := rfl
@[simp] theorem setKnot_knot (b : Knot) : (s.setKnot b).knot = b := rfl
@[simp] theorem setKnot_map (b : Knot) : (s.setKnot b).map = s.map := rfl
@[simp] theorem setKnot_former (b : Knot) : (s.setKnot b).former = s.former := rfl
@[simp] theorem setKnot_banks (b : Knot) : (s.setKnot b).banks = s.banks := rfl
@[simp] theorem setKnot_pace (b : Knot) : (s.setKnot b).pace = s.pace := rfl
@[simp] theorem setKnot_ply (b : Knot) : (s.setKnot b).ply = s.ply := rfl
@[simp] theorem setKnot_pending (b : Knot) : (s.setKnot b).pending = s.pending := rfl

@[simp] theorem setMap_start (b : RunMap) : (s.setMap b).start = s.start := rfl
@[simp] theorem setMap_station (b : RunMap) : (s.setMap b).station = s.station := rfl
@[simp] theorem setMap_length (b : RunMap) : (s.setMap b).length = s.length := rfl
@[simp] theorem setMap_marks (b : RunMap) : (s.setMap b).marks = s.marks := rfl
@[simp] theorem setMap_twist (b : RunMap) : (s.setMap b).twist = s.twist := rfl
@[simp] theorem setMap_knot (b : RunMap) : (s.setMap b).knot = s.knot := rfl
@[simp] theorem setMap_map (b : RunMap) : (s.setMap b).map = b := rfl
@[simp] theorem setMap_former (b : RunMap) : (s.setMap b).former = s.former := rfl
@[simp] theorem setMap_banks (b : RunMap) : (s.setMap b).banks = s.banks := rfl
@[simp] theorem setMap_pace (b : RunMap) : (s.setMap b).pace = s.pace := rfl
@[simp] theorem setMap_ply (b : RunMap) : (s.setMap b).ply = s.ply := rfl
@[simp] theorem setMap_pending (b : RunMap) : (s.setMap b).pending = s.pending := rfl

@[simp] theorem setFormer_start (b : Former) : (s.setFormer b).start = s.start := rfl
@[simp] theorem setFormer_station (b : Former) : (s.setFormer b).station = s.station := rfl
@[simp] theorem setFormer_length (b : Former) : (s.setFormer b).length = s.length := rfl
@[simp] theorem setFormer_marks (b : Former) : (s.setFormer b).marks = s.marks := rfl
@[simp] theorem setFormer_twist (b : Former) : (s.setFormer b).twist = s.twist := rfl
@[simp] theorem setFormer_knot (b : Former) : (s.setFormer b).knot = s.knot := rfl
@[simp] theorem setFormer_map (b : Former) : (s.setFormer b).map = s.map := rfl
@[simp] theorem setFormer_former (b : Former) : (s.setFormer b).former = b := rfl
@[simp] theorem setFormer_banks (b : Former) : (s.setFormer b).banks = s.banks := rfl
@[simp] theorem setFormer_pace (b : Former) : (s.setFormer b).pace = s.pace := rfl
@[simp] theorem setFormer_ply (b : Former) : (s.setFormer b).ply = s.ply := rfl
@[simp] theorem setFormer_pending (b : Former) : (s.setFormer b).pending = s.pending := rfl

@[simp] theorem setBanks_start (b : Vector Bank 4) : (s.setBanks b).start = s.start := rfl
@[simp] theorem setBanks_station (b : Vector Bank 4) : (s.setBanks b).station = s.station := rfl
@[simp] theorem setBanks_length (b : Vector Bank 4) : (s.setBanks b).length = s.length := rfl
@[simp] theorem setBanks_marks (b : Vector Bank 4) : (s.setBanks b).marks = s.marks := rfl
@[simp] theorem setBanks_twist (b : Vector Bank 4) : (s.setBanks b).twist = s.twist := rfl
@[simp] theorem setBanks_knot (b : Vector Bank 4) : (s.setBanks b).knot = s.knot := rfl
@[simp] theorem setBanks_map (b : Vector Bank 4) : (s.setBanks b).map = s.map := rfl
@[simp] theorem setBanks_former (b : Vector Bank 4) : (s.setBanks b).former = s.former := rfl
@[simp] theorem setBanks_banks (b : Vector Bank 4) : (s.setBanks b).banks = b := rfl
@[simp] theorem setBanks_pace (b : Vector Bank 4) : (s.setBanks b).pace = s.pace := rfl
@[simp] theorem setBanks_ply (b : Vector Bank 4) : (s.setBanks b).ply = s.ply := rfl
@[simp] theorem setBanks_pending (b : Vector Bank 4) : (s.setBanks b).pending = s.pending := rfl

@[simp] theorem setPace_start (b : Pace) : (s.setPace b).start = s.start := rfl
@[simp] theorem setPace_station (b : Pace) : (s.setPace b).station = s.station := rfl
@[simp] theorem setPace_length (b : Pace) : (s.setPace b).length = s.length := rfl
@[simp] theorem setPace_marks (b : Pace) : (s.setPace b).marks = s.marks := rfl
@[simp] theorem setPace_twist (b : Pace) : (s.setPace b).twist = s.twist := rfl
@[simp] theorem setPace_knot (b : Pace) : (s.setPace b).knot = s.knot := rfl
@[simp] theorem setPace_map (b : Pace) : (s.setPace b).map = s.map := rfl
@[simp] theorem setPace_former (b : Pace) : (s.setPace b).former = s.former := rfl
@[simp] theorem setPace_banks (b : Pace) : (s.setPace b).banks = s.banks := rfl
@[simp] theorem setPace_pace (b : Pace) : (s.setPace b).pace = b := rfl
@[simp] theorem setPace_ply (b : Pace) : (s.setPace b).ply = s.ply := rfl
@[simp] theorem setPace_pending (b : Pace) : (s.setPace b).pending = s.pending := rfl

@[simp] theorem setPly_start (b : Ply) : (s.setPly b).start = s.start := rfl
@[simp] theorem setPly_station (b : Ply) : (s.setPly b).station = s.station := rfl
@[simp] theorem setPly_length (b : Ply) : (s.setPly b).length = s.length := rfl
@[simp] theorem setPly_marks (b : Ply) : (s.setPly b).marks = s.marks := rfl
@[simp] theorem setPly_twist (b : Ply) : (s.setPly b).twist = s.twist := rfl
@[simp] theorem setPly_knot (b : Ply) : (s.setPly b).knot = s.knot := rfl
@[simp] theorem setPly_map (b : Ply) : (s.setPly b).map = s.map := rfl
@[simp] theorem setPly_former (b : Ply) : (s.setPly b).former = s.former := rfl
@[simp] theorem setPly_banks (b : Ply) : (s.setPly b).banks = s.banks := rfl
@[simp] theorem setPly_pace (b : Ply) : (s.setPly b).pace = s.pace := rfl
@[simp] theorem setPly_ply (b : Ply) : (s.setPly b).ply = b := rfl
@[simp] theorem setPly_pending (b : Ply) : (s.setPly b).pending = s.pending := rfl

@[simp] theorem setPending_start (b : List Instr) : (s.setPending b).start = s.start := rfl
@[simp] theorem setPending_station (b : List Instr) : (s.setPending b).station = s.station := rfl
@[simp] theorem setPending_length (b : List Instr) : (s.setPending b).length = s.length := rfl
@[simp] theorem setPending_marks (b : List Instr) : (s.setPending b).marks = s.marks := rfl
@[simp] theorem setPending_twist (b : List Instr) : (s.setPending b).twist = s.twist := rfl
@[simp] theorem setPending_knot (b : List Instr) : (s.setPending b).knot = s.knot := rfl
@[simp] theorem setPending_map (b : List Instr) : (s.setPending b).map = s.map := rfl
@[simp] theorem setPending_former (b : List Instr) : (s.setPending b).former = s.former := rfl
@[simp] theorem setPending_banks (b : List Instr) : (s.setPending b).banks = s.banks := rfl
@[simp] theorem setPending_pace (b : List Instr) : (s.setPending b).pace = s.pace := rfl
@[simp] theorem setPending_ply (b : List Instr) : (s.setPending b).ply = s.ply := rfl
@[simp] theorem setPending_pending (b : List Instr) : (s.setPending b).pending = b := rfl

end State

end Sys2Proof.Machine
end

