-- ==== Sys2Proof/Laws/Blocks.lean ====
section
/-!
SUPPORT. Which blocks each shared operation leaves as they stand: one lemma per operation and block, so
that a proof about one block passes over an operation by `simp` without unfolding it.
-/

namespace Sys2Proof.Machine

/-- A fold of an operation that keeps a view keeps it. -/
theorem foldl_keeps {α β : Type} (view : State → β) (f : State → α → State)
    (h : ∀ s a, view (f s a) = view s) (l : List α) (s : State) : view (l.foldl f s) = view s := by
  induction l generalizing s with
  | nil => rfl
  | cons a l ih => rw [List.foldl_cons, ih, h]

@[simp] theorem refreshPace_start (s : State) : (refreshPace s).start = s.start := by
  unfold refreshPace; split <;> simp
@[simp] theorem refreshPace_station (s : State) : (refreshPace s).station = s.station := by
  unfold refreshPace; split <;> simp
@[simp] theorem refreshPace_length (s : State) : (refreshPace s).length = s.length := by
  unfold refreshPace; split <;> simp
@[simp] theorem refreshPace_marks (s : State) : (refreshPace s).marks = s.marks := by
  unfold refreshPace; split <;> simp
@[simp] theorem refreshPace_twist (s : State) : (refreshPace s).twist = s.twist := by
  unfold refreshPace; split <;> simp
@[simp] theorem refreshPace_knot (s : State) : (refreshPace s).knot = s.knot := by
  unfold refreshPace; split <;> simp
@[simp] theorem refreshPace_map (s : State) : (refreshPace s).map = s.map := by
  unfold refreshPace; split <;> simp
@[simp] theorem refreshPace_former (s : State) : (refreshPace s).former = s.former := by
  unfold refreshPace; split <;> simp
@[simp] theorem refreshPace_banks (s : State) : (refreshPace s).banks = s.banks := by
  unfold refreshPace; split <;> simp
@[simp] theorem refreshPace_pending (s : State) : (refreshPace s).pending = s.pending := by
  unfold refreshPace; split <;> simp
@[simp] theorem reportDrop_start (b : TxBody) (s : State) : (reportDrop b s).start = s.start := by
  unfold reportDrop; split <;> simp
@[simp] theorem reportDrop_length (b : TxBody) (s : State) : (reportDrop b s).length = s.length := by
  unfold reportDrop; split <;> simp
@[simp] theorem reportDrop_marks (b : TxBody) (s : State) : (reportDrop b s).marks = s.marks := by
  unfold reportDrop; split <;> simp
@[simp] theorem reportDrop_twist (b : TxBody) (s : State) : (reportDrop b s).twist = s.twist := by
  unfold reportDrop; split <;> simp
@[simp] theorem reportDrop_knot (b : TxBody) (s : State) : (reportDrop b s).knot = s.knot := by
  unfold reportDrop; split <;> simp
@[simp] theorem reportDrop_map (b : TxBody) (s : State) : (reportDrop b s).map = s.map := by
  unfold reportDrop; split <;> simp
@[simp] theorem reportDrop_banks (b : TxBody) (s : State) : (reportDrop b s).banks = s.banks := by
  unfold reportDrop; split <;> simp
@[simp] theorem reportDrop_pace (b : TxBody) (s : State) : (reportDrop b s).pace = s.pace := by
  unfold reportDrop; split <;> simp
@[simp] theorem reportDrop_ply (b : TxBody) (s : State) : (reportDrop b s).ply = s.ply := by
  unfold reportDrop; split <;> simp
@[simp] theorem reportDrop_pending (b : TxBody) (s : State) : (reportDrop b s).pending = s.pending := by
  unfold reportDrop; split <;> simp
@[simp] theorem enqueue_start (b : TxBody) (s : State) : (enqueue b s).start = s.start := by
  unfold enqueue; dsimp only; (repeat' split) <;> simp
@[simp] theorem enqueue_length (b : TxBody) (s : State) : (enqueue b s).length = s.length := by
  unfold enqueue; dsimp only; (repeat' split) <;> simp
@[simp] theorem enqueue_marks (b : TxBody) (s : State) : (enqueue b s).marks = s.marks := by
  unfold enqueue; dsimp only; (repeat' split) <;> simp
@[simp] theorem enqueue_twist (b : TxBody) (s : State) : (enqueue b s).twist = s.twist := by
  unfold enqueue; dsimp only; (repeat' split) <;> simp
@[simp] theorem enqueue_knot (b : TxBody) (s : State) : (enqueue b s).knot = s.knot := by
  unfold enqueue; dsimp only; (repeat' split) <;> simp
@[simp] theorem enqueue_map (b : TxBody) (s : State) : (enqueue b s).map = s.map := by
  unfold enqueue; dsimp only; (repeat' split) <;> simp
@[simp] theorem enqueue_banks (b : TxBody) (s : State) : (enqueue b s).banks = s.banks := by
  unfold enqueue; dsimp only; (repeat' split) <;> simp
@[simp] theorem enqueue_pace (b : TxBody) (s : State) : (enqueue b s).pace = s.pace := by
  unfold enqueue; dsimp only; (repeat' split) <;> simp
@[simp] theorem enqueue_pending (b : TxBody) (s : State) : (enqueue b s).pending = s.pending := by
  unfold enqueue; dsimp only; (repeat' split) <;> simp
@[simp] theorem changeState_start (t : StationState) (s : State) : (changeState t s).start = s.start := by
  simp [changeState]
@[simp] theorem changeState_length (t : StationState) (s : State) : (changeState t s).length = s.length := by
  simp [changeState]
@[simp] theorem changeState_marks (t : StationState) (s : State) : (changeState t s).marks = s.marks := by
  simp [changeState]
@[simp] theorem changeState_twist (t : StationState) (s : State) : (changeState t s).twist = s.twist := by
  simp [changeState]
@[simp] theorem changeState_knot (t : StationState) (s : State) : (changeState t s).knot = s.knot := by
  simp [changeState]
@[simp] theorem changeState_map (t : StationState) (s : State) : (changeState t s).map = s.map := by
  simp [changeState]
@[simp] theorem changeState_former (t : StationState) (s : State) : (changeState t s).former = s.former := by
  simp [changeState]
@[simp] theorem changeState_banks (t : StationState) (s : State) : (changeState t s).banks = s.banks := by
  simp [changeState]
@[simp] theorem changeState_pending (t : StationState) (s : State) : (changeState t s).pending = s.pending := by
  simp [changeState]
@[simp] theorem clearDwell_start (s : State) : (clearDwell s).start = s.start := by
  unfold clearDwell; split <;> simp
@[simp] theorem clearDwell_station (s : State) : (clearDwell s).station = s.station := by
  unfold clearDwell; split <;> simp
@[simp] theorem clearDwell_marks (s : State) : (clearDwell s).marks = s.marks := by
  unfold clearDwell; split <;> simp
@[simp] theorem clearDwell_twist (s : State) : (clearDwell s).twist = s.twist := by
  unfold clearDwell; split <;> simp
@[simp] theorem clearDwell_map (s : State) : (clearDwell s).map = s.map := by
  unfold clearDwell; split <;> simp
@[simp] theorem clearDwell_former (s : State) : (clearDwell s).former = s.former := by
  unfold clearDwell; split <;> simp
@[simp] theorem clearDwell_banks (s : State) : (clearDwell s).banks = s.banks := by
  unfold clearDwell; split <;> simp
@[simp] theorem clearDwell_pace (s : State) : (clearDwell s).pace = s.pace := by
  unfold clearDwell; split <;> simp
@[simp] theorem clearDwell_ply (s : State) : (clearDwell s).ply = s.ply := by
  unfold clearDwell; split <;> simp
@[simp] theorem clearDwell_pending (s : State) : (clearDwell s).pending = s.pending := by
  unfold clearDwell; split <;> simp
@[simp] theorem loadDwell_start (s : State) : (loadDwell s).start = s.start := by
  simp [loadDwell]
@[simp] theorem loadDwell_station (s : State) : (loadDwell s).station = s.station := by
  simp [loadDwell]
@[simp] theorem loadDwell_marks (s : State) : (loadDwell s).marks = s.marks := by
  simp [loadDwell]
@[simp] theorem loadDwell_twist (s : State) : (loadDwell s).twist = s.twist := by
  simp [loadDwell]
@[simp] theorem loadDwell_knot (s : State) : (loadDwell s).knot = s.knot := by
  simp [loadDwell]
@[simp] theorem loadDwell_map (s : State) : (loadDwell s).map = s.map := by
  simp [loadDwell]
@[simp] theorem loadDwell_former (s : State) : (loadDwell s).former = s.former := by
  simp [loadDwell]
@[simp] theorem loadDwell_banks (s : State) : (loadDwell s).banks = s.banks := by
  simp [loadDwell]
@[simp] theorem loadDwell_pace (s : State) : (loadDwell s).pace = s.pace := by
  simp [loadDwell]
@[simp] theorem loadDwell_ply (s : State) : (loadDwell s).ply = s.ply := by
  simp [loadDwell]
@[simp] theorem loadDwell_pending (s : State) : (loadDwell s).pending = s.pending := by
  simp [loadDwell]
@[simp] theorem stopFromReady_start (s : State) : (stopFromReady s).start = s.start := by
  simp [stopFromReady]
@[simp] theorem stopFromReady_marks (s : State) : (stopFromReady s).marks = s.marks := by
  simp [stopFromReady]
@[simp] theorem stopFromReady_twist (s : State) : (stopFromReady s).twist = s.twist := by
  simp [stopFromReady]
@[simp] theorem stopFromReady_map (s : State) : (stopFromReady s).map = s.map := by
  simp [stopFromReady]
@[simp] theorem stopFromReady_former (s : State) : (stopFromReady s).former = s.former := by
  simp [stopFromReady]
@[simp] theorem stopFromReady_banks (s : State) : (stopFromReady s).banks = s.banks := by
  simp [stopFromReady]
@[simp] theorem stopFromReady_pending (s : State) : (stopFromReady s).pending = s.pending := by
  simp [stopFromReady]
@[simp] theorem ease_start (s : State) : (ease s).start = s.start := by
  simp [ease]
@[simp] theorem ease_marks (s : State) : (ease s).marks = s.marks := by
  simp [ease]
@[simp] theorem ease_twist (s : State) : (ease s).twist = s.twist := by
  simp [ease]
@[simp] theorem ease_map (s : State) : (ease s).map = s.map := by
  simp [ease]
@[simp] theorem ease_former (s : State) : (ease s).former = s.former := by
  simp [ease]
@[simp] theorem ease_banks (s : State) : (ease s).banks = s.banks := by
  simp [ease]
@[simp] theorem ease_pending (s : State) : (ease s).pending = s.pending := by
  simp [ease]
@[simp] theorem resumeRun_start (s : State) : (resumeRun s).start = s.start := by
  simp [resumeRun]
@[simp] theorem resumeRun_marks (s : State) : (resumeRun s).marks = s.marks := by
  simp [resumeRun]
@[simp] theorem resumeRun_twist (s : State) : (resumeRun s).twist = s.twist := by
  simp [resumeRun]
@[simp] theorem resumeRun_knot (s : State) : (resumeRun s).knot = s.knot := by
  simp [resumeRun]
@[simp] theorem resumeRun_map (s : State) : (resumeRun s).map = s.map := by
  simp [resumeRun]
@[simp] theorem resumeRun_former (s : State) : (resumeRun s).former = s.former := by
  simp [resumeRun]
@[simp] theorem resumeRun_banks (s : State) : (resumeRun s).banks = s.banks := by
  simp [resumeRun]
@[simp] theorem resumeRun_pending (s : State) : (resumeRun s).pending = s.pending := by
  simp [resumeRun]
@[simp] theorem announce_start (c : LocalCause) (s : State) : (announce c s).start = s.start := by
  unfold announce; split <;> simp
@[simp] theorem announce_length (c : LocalCause) (s : State) : (announce c s).length = s.length := by
  unfold announce; split <;> simp
@[simp] theorem announce_marks (c : LocalCause) (s : State) : (announce c s).marks = s.marks := by
  unfold announce; split <;> simp
@[simp] theorem announce_twist (c : LocalCause) (s : State) : (announce c s).twist = s.twist := by
  unfold announce; split <;> simp
@[simp] theorem announce_knot (c : LocalCause) (s : State) : (announce c s).knot = s.knot := by
  unfold announce; split <;> simp
@[simp] theorem announce_map (c : LocalCause) (s : State) : (announce c s).map = s.map := by
  unfold announce; split <;> simp
@[simp] theorem announce_banks (c : LocalCause) (s : State) : (announce c s).banks = s.banks := by
  unfold announce; split <;> simp
@[simp] theorem announce_pace (c : LocalCause) (s : State) : (announce c s).pace = s.pace := by
  unfold announce; split <;> simp
@[simp] theorem announce_pending (c : LocalCause) (s : State) : (announce c s).pending = s.pending := by
  unfold announce; split <;> simp
@[simp] theorem actSoft_start (s : State) : (actSoft s).start = s.start := by
  unfold actSoft; (repeat' split) <;> simp
@[simp] theorem actSoft_marks (s : State) : (actSoft s).marks = s.marks := by
  unfold actSoft; (repeat' split) <;> simp
@[simp] theorem actSoft_twist (s : State) : (actSoft s).twist = s.twist := by
  unfold actSoft; (repeat' split) <;> simp
@[simp] theorem actSoft_map (s : State) : (actSoft s).map = s.map := by
  unfold actSoft; (repeat' split) <;> simp
@[simp] theorem actSoft_former (s : State) : (actSoft s).former = s.former := by
  unfold actSoft; (repeat' split) <;> simp
@[simp] theorem actSoft_banks (s : State) : (actSoft s).banks = s.banks := by
  unfold actSoft; (repeat' split) <;> simp
@[simp] theorem actSoft_pending (s : State) : (actSoft s).pending = s.pending := by
  unfold actSoft; (repeat' split) <;> simp
@[simp] theorem raiseSoft_start (c : LocalCause) (s : State) : (raiseSoft c s).start = s.start := by
  unfold raiseSoft; split <;> simp
@[simp] theorem raiseSoft_marks (c : LocalCause) (s : State) : (raiseSoft c s).marks = s.marks := by
  unfold raiseSoft; split <;> simp
@[simp] theorem raiseSoft_twist (c : LocalCause) (s : State) : (raiseSoft c s).twist = s.twist := by
  unfold raiseSoft; split <;> simp
@[simp] theorem raiseSoft_map (c : LocalCause) (s : State) : (raiseSoft c s).map = s.map := by
  unfold raiseSoft; split <;> simp
@[simp] theorem raiseSoft_banks (c : LocalCause) (s : State) : (raiseSoft c s).banks = s.banks := by
  unfold raiseSoft; split <;> simp
@[simp] theorem raiseSoft_pending (c : LocalCause) (s : State) : (raiseSoft c s).pending = s.pending := by
  unfold raiseSoft; split <;> simp
@[simp] theorem settleRemoval_start (s : State) : (settleRemoval s).start = s.start := by
  unfold settleRemoval; dsimp only; (repeat' split) <;> simp
@[simp] theorem settleRemoval_marks (s : State) : (settleRemoval s).marks = s.marks := by
  unfold settleRemoval; dsimp only; (repeat' split) <;> simp
@[simp] theorem settleRemoval_twist (s : State) : (settleRemoval s).twist = s.twist := by
  unfold settleRemoval; dsimp only; (repeat' split) <;> simp
@[simp] theorem settleRemoval_knot (s : State) : (settleRemoval s).knot = s.knot := by
  unfold settleRemoval; dsimp only; (repeat' split) <;> simp
@[simp] theorem settleRemoval_map (s : State) : (settleRemoval s).map = s.map := by
  unfold settleRemoval; dsimp only; (repeat' split) <;> simp
@[simp] theorem settleRemoval_former (s : State) : (settleRemoval s).former = s.former := by
  unfold settleRemoval; dsimp only; (repeat' split) <;> simp
@[simp] theorem settleRemoval_banks (s : State) : (settleRemoval s).banks = s.banks := by
  unfold settleRemoval; dsimp only; (repeat' split) <;> simp
@[simp] theorem settleRemoval_pending (s : State) : (settleRemoval s).pending = s.pending := by
  unfold settleRemoval; dsimp only; (repeat' split) <;> simp
@[simp] theorem handOff_start (e : MapEntry) (s : State) : (handOff e s).start = s.start :=
  foldl_keeps (fun t => t.start) _ (fun _ _ => by simp) _ s
@[simp] theorem handOff_length (e : MapEntry) (s : State) : (handOff e s).length = s.length :=
  foldl_keeps (fun t => t.length) _ (fun _ _ => by simp) _ s
@[simp] theorem handOff_marks (e : MapEntry) (s : State) : (handOff e s).marks = s.marks :=
  foldl_keeps (fun t => t.marks) _ (fun _ _ => by simp) _ s
@[simp] theorem handOff_twist (e : MapEntry) (s : State) : (handOff e s).twist = s.twist :=
  foldl_keeps (fun t => t.twist) _ (fun _ _ => by simp) _ s
@[simp] theorem handOff_knot (e : MapEntry) (s : State) : (handOff e s).knot = s.knot :=
  foldl_keeps (fun t => t.knot) _ (fun _ _ => by simp) _ s
@[simp] theorem handOff_map (e : MapEntry) (s : State) : (handOff e s).map = s.map :=
  foldl_keeps (fun t => t.map) _ (fun _ _ => by simp) _ s
@[simp] theorem handOff_banks (e : MapEntry) (s : State) : (handOff e s).banks = s.banks :=
  foldl_keeps (fun t => t.banks) _ (fun _ _ => by simp) _ s
@[simp] theorem handOff_pace (e : MapEntry) (s : State) : (handOff e s).pace = s.pace :=
  foldl_keeps (fun t => t.pace) _ (fun _ _ => by simp) _ s
@[simp] theorem handOff_pending (e : MapEntry) (s : State) : (handOff e s).pending = s.pending :=
  foldl_keeps (fun t => t.pending) _ (fun _ _ => by simp) _ s
@[simp] theorem placeEntry_start (e : MapEntry) (l : List MapEntry) (b : Bool) (s : State) : (placeEntry e l b s).start = s.start := by
  unfold placeEntry; dsimp only; split <;> simp
@[simp] theorem placeEntry_length (e : MapEntry) (l : List MapEntry) (b : Bool) (s : State) : (placeEntry e l b s).length = s.length := by
  unfold placeEntry; dsimp only; split <;> simp
@[simp] theorem placeEntry_marks (e : MapEntry) (l : List MapEntry) (b : Bool) (s : State) : (placeEntry e l b s).marks = s.marks := by
  unfold placeEntry; dsimp only; split <;> simp
@[simp] theorem placeEntry_twist (e : MapEntry) (l : List MapEntry) (b : Bool) (s : State) : (placeEntry e l b s).twist = s.twist := by
  unfold placeEntry; dsimp only; split <;> simp
@[simp] theorem placeEntry_knot (e : MapEntry) (l : List MapEntry) (b : Bool) (s : State) : (placeEntry e l b s).knot = s.knot := by
  unfold placeEntry; dsimp only; split <;> simp
@[simp] theorem placeEntry_banks (e : MapEntry) (l : List MapEntry) (b : Bool) (s : State) : (placeEntry e l b s).banks = s.banks := by
  unfold placeEntry; dsimp only; split <;> simp
@[simp] theorem placeEntry_pace (e : MapEntry) (l : List MapEntry) (b : Bool) (s : State) : (placeEntry e l b s).pace = s.pace := by
  unfold placeEntry; dsimp only; split <;> simp
@[simp] theorem placeEntry_pending (e : MapEntry) (l : List MapEntry) (b : Bool) (s : State) : (placeEntry e l b s).pending = s.pending := by
  unfold placeEntry; dsimp only; split <;> simp
@[simp] theorem countDropped_start (s : State) : (countDropped s).start = s.start := by
  simp [countDropped]
@[simp] theorem countDropped_station (s : State) : (countDropped s).station = s.station := by
  simp [countDropped]
@[simp] theorem countDropped_length (s : State) : (countDropped s).length = s.length := by
  simp [countDropped]
@[simp] theorem countDropped_marks (s : State) : (countDropped s).marks = s.marks := by
  simp [countDropped]
@[simp] theorem countDropped_twist (s : State) : (countDropped s).twist = s.twist := by
  simp [countDropped]
@[simp] theorem countDropped_knot (s : State) : (countDropped s).knot = s.knot := by
  simp [countDropped]
@[simp] theorem countDropped_former (s : State) : (countDropped s).former = s.former := by
  simp [countDropped]
@[simp] theorem countDropped_banks (s : State) : (countDropped s).banks = s.banks := by
  simp [countDropped]
@[simp] theorem countDropped_pace (s : State) : (countDropped s).pace = s.pace := by
  simp [countDropped]
@[simp] theorem countDropped_ply (s : State) : (countDropped s).ply = s.ply := by
  simp [countDropped]
@[simp] theorem countDropped_pending (s : State) : (countDropped s).pending = s.pending := by
  simp [countDropped]
@[simp] theorem offerRaw_start (e : MapEntry) (s : State) : ((offerRaw e s).1).start = s.start := by
  unfold offerRaw; dsimp only; split <;> simp
@[simp] theorem offerRaw_marks (e : MapEntry) (s : State) : ((offerRaw e s).1).marks = s.marks := by
  unfold offerRaw; dsimp only; split <;> simp
@[simp] theorem offerRaw_twist (e : MapEntry) (s : State) : ((offerRaw e s).1).twist = s.twist := by
  unfold offerRaw; dsimp only; split <;> simp
@[simp] theorem offerRaw_banks (e : MapEntry) (s : State) : ((offerRaw e s).1).banks = s.banks := by
  unfold offerRaw; dsimp only; split <;> simp
@[simp] theorem offerRaw_pending (e : MapEntry) (s : State) : ((offerRaw e s).1).pending = s.pending := by
  unfold offerRaw; dsimp only; split <;> simp
@[simp] theorem mergeLocal_start (k : EntryKind) (s : State) : (mergeLocal k s).start = s.start := by
  simp [mergeLocal]
@[simp] theorem mergeLocal_station (k : EntryKind) (s : State) : (mergeLocal k s).station = s.station := by
  simp [mergeLocal]
@[simp] theorem mergeLocal_length (k : EntryKind) (s : State) : (mergeLocal k s).length = s.length := by
  simp [mergeLocal]
@[simp] theorem mergeLocal_marks (k : EntryKind) (s : State) : (mergeLocal k s).marks = s.marks := by
  simp [mergeLocal]
@[simp] theorem mergeLocal_twist (k : EntryKind) (s : State) : (mergeLocal k s).twist = s.twist := by
  simp [mergeLocal]
@[simp] theorem mergeLocal_knot (k : EntryKind) (s : State) : (mergeLocal k s).knot = s.knot := by
  simp [mergeLocal]
@[simp] theorem mergeLocal_former (k : EntryKind) (s : State) : (mergeLocal k s).former = s.former := by
  simp [mergeLocal]
@[simp] theorem mergeLocal_banks (k : EntryKind) (s : State) : (mergeLocal k s).banks = s.banks := by
  simp [mergeLocal]
@[simp] theorem mergeLocal_pace (k : EntryKind) (s : State) : (mergeLocal k s).pace = s.pace := by
  simp [mergeLocal]
@[simp] theorem mergeLocal_ply (k : EntryKind) (s : State) : (mergeLocal k s).ply = s.ply := by
  simp [mergeLocal]
@[simp] theorem mergeLocal_pending (k : EntryKind) (s : State) : (mergeLocal k s).pending = s.pending := by
  simp [mergeLocal]
@[simp] theorem forgetLocal_start (k : EntryKind) (s : State) : (forgetLocal k s).start = s.start := by
  simp [forgetLocal]
@[simp] theorem forgetLocal_station (k : EntryKind) (s : State) : (forgetLocal k s).station = s.station := by
  simp [forgetLocal]
@[simp] theorem forgetLocal_length (k : EntryKind) (s : State) : (forgetLocal k s).length = s.length := by
  simp [forgetLocal]
@[simp] theorem forgetLocal_marks (k : EntryKind) (s : State) : (forgetLocal k s).marks = s.marks := by
  simp [forgetLocal]
@[simp] theorem forgetLocal_twist (k : EntryKind) (s : State) : (forgetLocal k s).twist = s.twist := by
  simp [forgetLocal]
@[simp] theorem forgetLocal_knot (k : EntryKind) (s : State) : (forgetLocal k s).knot = s.knot := by
  simp [forgetLocal]
@[simp] theorem forgetLocal_former (k : EntryKind) (s : State) : (forgetLocal k s).former = s.former := by
  simp [forgetLocal]
@[simp] theorem forgetLocal_banks (k : EntryKind) (s : State) : (forgetLocal k s).banks = s.banks := by
  simp [forgetLocal]
@[simp] theorem forgetLocal_pace (k : EntryKind) (s : State) : (forgetLocal k s).pace = s.pace := by
  simp [forgetLocal]
@[simp] theorem forgetLocal_ply (k : EntryKind) (s : State) : (forgetLocal k s).ply = s.ply := by
  simp [forgetLocal]
@[simp] theorem forgetLocal_pending (k : EntryKind) (s : State) : (forgetLocal k s).pending = s.pending := by
  simp [forgetLocal]
@[simp] theorem offerLocal_start (k : EntryKind) (s : State) : ((offerLocal k s).1).start = s.start := by
  unfold offerLocal; dsimp only; split <;> simp
@[simp] theorem offerLocal_marks (k : EntryKind) (s : State) : ((offerLocal k s).1).marks = s.marks := by
  unfold offerLocal; dsimp only; split <;> simp
@[simp] theorem offerLocal_twist (k : EntryKind) (s : State) : ((offerLocal k s).1).twist = s.twist := by
  unfold offerLocal; dsimp only; split <;> simp
@[simp] theorem offerLocal_banks (k : EntryKind) (s : State) : ((offerLocal k s).1).banks = s.banks := by
  unfold offerLocal; dsimp only; split <;> simp
@[simp] theorem offerLocal_pending (k : EntryKind) (s : State) : ((offerLocal k s).1).pending = s.pending := by
  unfold offerLocal; dsimp only; split <;> simp
@[simp] theorem extendEntry_start (k : EntryKind) (p c : Nat) (m : Bool) (s : State) : ((extendEntry k p c m s).1).start = s.start := by
  unfold extendEntry; split <;> simp
@[simp] theorem extendEntry_station (k : EntryKind) (p c : Nat) (m : Bool) (s : State) : ((extendEntry k p c m s).1).station = s.station := by
  unfold extendEntry; split <;> simp
@[simp] theorem extendEntry_length (k : EntryKind) (p c : Nat) (m : Bool) (s : State) : ((extendEntry k p c m s).1).length = s.length := by
  unfold extendEntry; split <;> simp
@[simp] theorem extendEntry_marks (k : EntryKind) (p c : Nat) (m : Bool) (s : State) : ((extendEntry k p c m s).1).marks = s.marks := by
  unfold extendEntry; split <;> simp
@[simp] theorem extendEntry_twist (k : EntryKind) (p c : Nat) (m : Bool) (s : State) : ((extendEntry k p c m s).1).twist = s.twist := by
  unfold extendEntry; split <;> simp
@[simp] theorem extendEntry_knot (k : EntryKind) (p c : Nat) (m : Bool) (s : State) : ((extendEntry k p c m s).1).knot = s.knot := by
  unfold extendEntry; split <;> simp
@[simp] theorem extendEntry_former (k : EntryKind) (p c : Nat) (m : Bool) (s : State) : ((extendEntry k p c m s).1).former = s.former := by
  unfold extendEntry; split <;> simp
@[simp] theorem extendEntry_banks (k : EntryKind) (p c : Nat) (m : Bool) (s : State) : ((extendEntry k p c m s).1).banks = s.banks := by
  unfold extendEntry; split <;> simp
@[simp] theorem extendEntry_pace (k : EntryKind) (p c : Nat) (m : Bool) (s : State) : ((extendEntry k p c m s).1).pace = s.pace := by
  unfold extendEntry; split <;> simp
@[simp] theorem extendEntry_ply (k : EntryKind) (p c : Nat) (m : Bool) (s : State) : ((extendEntry k p c m s).1).ply = s.ply := by
  unfold extendEntry; split <;> simp
@[simp] theorem extendEntry_pending (k : EntryKind) (p c : Nat) (m : Bool) (s : State) : ((extendEntry k p c m s).1).pending = s.pending := by
  unfold extendEntry; split <;> simp
@[simp] theorem closeEntry_start (k : EntryKind) (s : State) : ((closeEntry k s).1).start = s.start := by
  unfold closeEntry; split <;> simp
@[simp] theorem closeEntry_length (k : EntryKind) (s : State) : ((closeEntry k s).1).length = s.length := by
  unfold closeEntry; split <;> simp
@[simp] theorem closeEntry_marks (k : EntryKind) (s : State) : ((closeEntry k s).1).marks = s.marks := by
  unfold closeEntry; split <;> simp
@[simp] theorem closeEntry_twist (k : EntryKind) (s : State) : ((closeEntry k s).1).twist = s.twist := by
  unfold closeEntry; split <;> simp
@[simp] theorem closeEntry_knot (k : EntryKind) (s : State) : ((closeEntry k s).1).knot = s.knot := by
  unfold closeEntry; split <;> simp
@[simp] theorem closeEntry_banks (k : EntryKind) (s : State) : ((closeEntry k s).1).banks = s.banks := by
  unfold closeEntry; split <;> simp
@[simp] theorem closeEntry_pace (k : EntryKind) (s : State) : ((closeEntry k s).1).pace = s.pace := by
  unfold closeEntry; split <;> simp
@[simp] theorem closeEntry_pending (k : EntryKind) (s : State) : ((closeEntry k s).1).pending = s.pending := by
  unfold closeEntry; split <;> simp
@[simp] theorem retain_start (before : Nat) (s : State) : (retain before s).start = s.start := by
  unfold retain; split <;> simp
@[simp] theorem retain_station (before : Nat) (s : State) : (retain before s).station = s.station := by
  unfold retain; split <;> simp
@[simp] theorem retain_length (before : Nat) (s : State) : (retain before s).length = s.length := by
  unfold retain; split <;> simp
@[simp] theorem retain_marks (before : Nat) (s : State) : (retain before s).marks = s.marks := by
  unfold retain; split <;> simp
@[simp] theorem retain_twist (before : Nat) (s : State) : (retain before s).twist = s.twist := by
  unfold retain; split <;> simp
@[simp] theorem retain_knot (before : Nat) (s : State) : (retain before s).knot = s.knot := by
  unfold retain; split <;> simp
@[simp] theorem retain_former (before : Nat) (s : State) : (retain before s).former = s.former := by
  unfold retain; split <;> simp
@[simp] theorem retain_banks (before : Nat) (s : State) : (retain before s).banks = s.banks := by
  unfold retain; split <;> simp
@[simp] theorem retain_pace (before : Nat) (s : State) : (retain before s).pace = s.pace := by
  unfold retain; split <;> simp
@[simp] theorem retain_ply (before : Nat) (s : State) : (retain before s).ply = s.ply := by
  unfold retain; split <;> simp
@[simp] theorem retain_pending (before : Nat) (s : State) : (retain before s).pending = s.pending := by
  unfold retain; split <;> simp
@[simp] theorem testMarkAt_start (len : Nat) (s : State) : (testMarkAt len s).start = s.start := by
  unfold testMarkAt; (repeat' split) <;> simp
@[simp] theorem testMarkAt_station (len : Nat) (s : State) : (testMarkAt len s).station = s.station := by
  unfold testMarkAt; (repeat' split) <;> simp
@[simp] theorem testMarkAt_length (len : Nat) (s : State) : (testMarkAt len s).length = s.length := by
  unfold testMarkAt; (repeat' split) <;> simp
@[simp] theorem testMarkAt_twist (len : Nat) (s : State) : (testMarkAt len s).twist = s.twist := by
  unfold testMarkAt; (repeat' split) <;> simp
@[simp] theorem testMarkAt_knot (len : Nat) (s : State) : (testMarkAt len s).knot = s.knot := by
  unfold testMarkAt; (repeat' split) <;> simp
@[simp] theorem testMarkAt_map (len : Nat) (s : State) : (testMarkAt len s).map = s.map := by
  unfold testMarkAt; (repeat' split) <;> simp
@[simp] theorem testMarkAt_former (len : Nat) (s : State) : (testMarkAt len s).former = s.former := by
  unfold testMarkAt; (repeat' split) <;> simp
@[simp] theorem testMarkAt_banks (len : Nat) (s : State) : (testMarkAt len s).banks = s.banks := by
  unfold testMarkAt; (repeat' split) <;> simp
@[simp] theorem testMarkAt_pace (len : Nat) (s : State) : (testMarkAt len s).pace = s.pace := by
  unfold testMarkAt; (repeat' split) <;> simp
@[simp] theorem testMarkAt_ply (len : Nat) (s : State) : (testMarkAt len s).ply = s.ply := by
  unfold testMarkAt; (repeat' split) <;> simp
@[simp] theorem testMarkAt_pending (len : Nat) (s : State) : (testMarkAt len s).pending = s.pending := by
  unfold testMarkAt; (repeat' split) <;> simp
@[simp] theorem testMark_start (s : State) : (testMark s).start = s.start := by
  unfold testMark; split <;> simp
@[simp] theorem testMark_station (s : State) : (testMark s).station = s.station := by
  unfold testMark; split <;> simp
@[simp] theorem testMark_length (s : State) : (testMark s).length = s.length := by
  unfold testMark; split <;> simp
@[simp] theorem testMark_twist (s : State) : (testMark s).twist = s.twist := by
  unfold testMark; split <;> simp
@[simp] theorem testMark_knot (s : State) : (testMark s).knot = s.knot := by
  unfold testMark; split <;> simp
@[simp] theorem testMark_map (s : State) : (testMark s).map = s.map := by
  unfold testMark; split <;> simp
@[simp] theorem testMark_former (s : State) : (testMark s).former = s.former := by
  unfold testMark; split <;> simp
@[simp] theorem testMark_banks (s : State) : (testMark s).banks = s.banks := by
  unfold testMark; split <;> simp
@[simp] theorem testMark_pace (s : State) : (testMark s).pace = s.pace := by
  unfold testMark; split <;> simp
@[simp] theorem testMark_ply (s : State) : (testMark s).ply = s.ply := by
  unfold testMark; split <;> simp
@[simp] theorem testMark_pending (s : State) : (testMark s).pending = s.pending := by
  unfold testMark; split <;> simp
@[simp] theorem retarget_start (s : State) : (retarget s).start = s.start := by
  simp [retarget]
@[simp] theorem retarget_station (s : State) : (retarget s).station = s.station := by
  simp [retarget]
@[simp] theorem retarget_length (s : State) : (retarget s).length = s.length := by
  simp [retarget]
@[simp] theorem retarget_marks (s : State) : (retarget s).marks = s.marks := by
  simp [retarget]
@[simp] theorem retarget_knot (s : State) : (retarget s).knot = s.knot := by
  simp [retarget]
@[simp] theorem retarget_map (s : State) : (retarget s).map = s.map := by
  simp [retarget]
@[simp] theorem retarget_former (s : State) : (retarget s).former = s.former := by
  simp [retarget]
@[simp] theorem retarget_banks (s : State) : (retarget s).banks = s.banks := by
  simp [retarget]
@[simp] theorem retarget_pace (s : State) : (retarget s).pace = s.pace := by
  simp [retarget]
@[simp] theorem retarget_ply (s : State) : (retarget s).ply = s.ply := by
  simp [retarget]
@[simp] theorem retarget_pending (s : State) : (retarget s).pending = s.pending := by
  simp [retarget]
@[simp] theorem openWindow_start (s : State) : (openWindow s).start = s.start := by
  unfold openWindow; split <;> simp
@[simp] theorem openWindow_station (s : State) : (openWindow s).station = s.station := by
  unfold openWindow; split <;> simp
@[simp] theorem openWindow_length (s : State) : (openWindow s).length = s.length := by
  unfold openWindow; split <;> simp
@[simp] theorem openWindow_marks (s : State) : (openWindow s).marks = s.marks := by
  unfold openWindow; split <;> simp
@[simp] theorem openWindow_knot (s : State) : (openWindow s).knot = s.knot := by
  unfold openWindow; split <;> simp
@[simp] theorem openWindow_map (s : State) : (openWindow s).map = s.map := by
  unfold openWindow; split <;> simp
@[simp] theorem openWindow_former (s : State) : (openWindow s).former = s.former := by
  unfold openWindow; split <;> simp
@[simp] theorem openWindow_banks (s : State) : (openWindow s).banks = s.banks := by
  unfold openWindow; split <;> simp
@[simp] theorem openWindow_pace (s : State) : (openWindow s).pace = s.pace := by
  unfold openWindow; split <;> simp
@[simp] theorem openWindow_ply (s : State) : (openWindow s).ply = s.ply := by
  unfold openWindow; split <;> simp
@[simp] theorem openWindow_pending (s : State) : (openWindow s).pending = s.pending := by
  unfold openWindow; split <;> simp
@[simp] theorem endTwistRun_start (s : State) : ((endTwistRun s).1).start = s.start := by
  simp [endTwistRun]
@[simp] theorem endTwistRun_length (s : State) : ((endTwistRun s).1).length = s.length := by
  simp [endTwistRun]
@[simp] theorem endTwistRun_marks (s : State) : ((endTwistRun s).1).marks = s.marks := by
  simp [endTwistRun]
@[simp] theorem endTwistRun_knot (s : State) : ((endTwistRun s).1).knot = s.knot := by
  simp [endTwistRun]
@[simp] theorem endTwistRun_banks (s : State) : ((endTwistRun s).1).banks = s.banks := by
  simp [endTwistRun]
@[simp] theorem endTwistRun_pace (s : State) : ((endTwistRun s).1).pace = s.pace := by
  simp [endTwistRun]
@[simp] theorem endTwistRun_pending (s : State) : ((endTwistRun s).1).pending = s.pending := by
  simp [endTwistRun]
@[simp] theorem switchTwist_start (o : Nat) (s : State) : ((switchTwist o s).1).start = s.start := by
  unfold switchTwist; dsimp only; (repeat' split) <;> simp
@[simp] theorem switchTwist_length (o : Nat) (s : State) : ((switchTwist o s).1).length = s.length := by
  unfold switchTwist; dsimp only; (repeat' split) <;> simp
@[simp] theorem switchTwist_marks (o : Nat) (s : State) : ((switchTwist o s).1).marks = s.marks := by
  unfold switchTwist; dsimp only; (repeat' split) <;> simp
@[simp] theorem switchTwist_knot (o : Nat) (s : State) : ((switchTwist o s).1).knot = s.knot := by
  unfold switchTwist; dsimp only; (repeat' split) <;> simp
@[simp] theorem switchTwist_banks (o : Nat) (s : State) : ((switchTwist o s).1).banks = s.banks := by
  unfold switchTwist; dsimp only; (repeat' split) <;> simp
@[simp] theorem switchTwist_pace (o : Nat) (s : State) : ((switchTwist o s).1).pace = s.pace := by
  unfold switchTwist; dsimp only; (repeat' split) <;> simp
@[simp] theorem switchTwist_pending (o : Nat) (s : State) : ((switchTwist o s).1).pending = s.pending := by
  unfold switchTwist; dsimp only; (repeat' split) <;> simp
@[simp] theorem openRow_start (s : State) : (openRow s).start = s.start := by
  unfold openRow; split <;> simp
@[simp] theorem openRow_station (s : State) : (openRow s).station = s.station := by
  unfold openRow; split <;> simp
@[simp] theorem openRow_length (s : State) : (openRow s).length = s.length := by
  unfold openRow; split <;> simp
@[simp] theorem openRow_marks (s : State) : (openRow s).marks = s.marks := by
  unfold openRow; split <;> simp
@[simp] theorem openRow_twist (s : State) : (openRow s).twist = s.twist := by
  unfold openRow; split <;> simp
@[simp] theorem openRow_map (s : State) : (openRow s).map = s.map := by
  unfold openRow; split <;> simp
@[simp] theorem openRow_former (s : State) : (openRow s).former = s.former := by
  unfold openRow; split <;> simp
@[simp] theorem openRow_banks (s : State) : (openRow s).banks = s.banks := by
  unfold openRow; split <;> simp
@[simp] theorem openRow_pace (s : State) : (openRow s).pace = s.pace := by
  unfold openRow; split <;> simp
@[simp] theorem openRow_ply (s : State) : (openRow s).ply = s.ply := by
  unfold openRow; split <;> simp
@[simp] theorem openRow_pending (s : State) : (openRow s).pending = s.pending := by
  unfold openRow; split <;> simp
@[simp] theorem closeKnotEntries_start (s : State) : ((closeKnotEntries s).1).start = s.start := by
  simp [closeKnotEntries]
@[simp] theorem closeKnotEntries_length (s : State) : ((closeKnotEntries s).1).length = s.length := by
  simp [closeKnotEntries]
@[simp] theorem closeKnotEntries_marks (s : State) : ((closeKnotEntries s).1).marks = s.marks := by
  simp [closeKnotEntries]
@[simp] theorem closeKnotEntries_twist (s : State) : ((closeKnotEntries s).1).twist = s.twist := by
  simp [closeKnotEntries]
@[simp] theorem closeKnotEntries_knot (s : State) : ((closeKnotEntries s).1).knot = s.knot := by
  simp [closeKnotEntries]
@[simp] theorem closeKnotEntries_banks (s : State) : ((closeKnotEntries s).1).banks = s.banks := by
  simp [closeKnotEntries]
@[simp] theorem closeKnotEntries_pace (s : State) : ((closeKnotEntries s).1).pace = s.pace := by
  simp [closeKnotEntries]
@[simp] theorem closeKnotEntries_pending (s : State) : ((closeKnotEntries s).1).pending = s.pending := by
  simp [closeKnotEntries]
@[simp] theorem switchKnot_start (s : State) : ((switchKnot s).1).start = s.start := by
  unfold switchKnot; split <;> simp
@[simp] theorem switchKnot_length (s : State) : ((switchKnot s).1).length = s.length := by
  unfold switchKnot; split <;> simp
@[simp] theorem switchKnot_marks (s : State) : ((switchKnot s).1).marks = s.marks := by
  unfold switchKnot; split <;> simp
@[simp] theorem switchKnot_twist (s : State) : ((switchKnot s).1).twist = s.twist := by
  unfold switchKnot; split <;> simp
@[simp] theorem switchKnot_banks (s : State) : ((switchKnot s).1).banks = s.banks := by
  unfold switchKnot; split <;> simp
@[simp] theorem switchKnot_pace (s : State) : ((switchKnot s).1).pace = s.pace := by
  unfold switchKnot; split <;> simp
@[simp] theorem switchKnot_pending (s : State) : ((switchKnot s).1).pending = s.pending := by
  unfold switchKnot; split <;> simp
@[simp] theorem setBank_start (k : Nat) (b : Bank) (s : State) : (s.setBank k b).start = s.start := by
  unfold State.setBank; split <;> simp
@[simp] theorem setBank_station (k : Nat) (b : Bank) (s : State) : (s.setBank k b).station = s.station := by
  unfold State.setBank; split <;> simp
@[simp] theorem setBank_length (k : Nat) (b : Bank) (s : State) : (s.setBank k b).length = s.length := by
  unfold State.setBank; split <;> simp
@[simp] theorem setBank_marks (k : Nat) (b : Bank) (s : State) : (s.setBank k b).marks = s.marks := by
  unfold State.setBank; split <;> simp
@[simp] theorem setBank_twist (k : Nat) (b : Bank) (s : State) : (s.setBank k b).twist = s.twist := by
  unfold State.setBank; split <;> simp
@[simp] theorem setBank_knot (k : Nat) (b : Bank) (s : State) : (s.setBank k b).knot = s.knot := by
  unfold State.setBank; split <;> simp
@[simp] theorem setBank_map (k : Nat) (b : Bank) (s : State) : (s.setBank k b).map = s.map := by
  unfold State.setBank; split <;> simp
@[simp] theorem setBank_former (k : Nat) (b : Bank) (s : State) : (s.setBank k b).former = s.former := by
  unfold State.setBank; split <;> simp
@[simp] theorem setBank_pace (k : Nat) (b : Bank) (s : State) : (s.setBank k b).pace = s.pace := by
  unfold State.setBank; split <;> simp
@[simp] theorem setBank_ply (k : Nat) (b : Bank) (s : State) : (s.setBank k b).ply = s.ply := by
  unfold State.setBank; split <;> simp
@[simp] theorem setBank_pending (k : Nat) (b : Bank) (s : State) : (s.setBank k b).pending = s.pending := by
  unfold State.setBank; split <;> simp
@[simp] theorem switchStates_start (k : Nat) (s : State) : (switchStates k s).start = s.start := by
  unfold switchStates; split <;> simp
@[simp] theorem switchStates_station (k : Nat) (s : State) : (switchStates k s).station = s.station := by
  unfold switchStates; split <;> simp
@[simp] theorem switchStates_length (k : Nat) (s : State) : (switchStates k s).length = s.length := by
  unfold switchStates; split <;> simp
@[simp] theorem switchStates_marks (k : Nat) (s : State) : (switchStates k s).marks = s.marks := by
  unfold switchStates; split <;> simp
@[simp] theorem switchStates_twist (k : Nat) (s : State) : (switchStates k s).twist = s.twist := by
  unfold switchStates; split <;> simp
@[simp] theorem switchStates_knot (k : Nat) (s : State) : (switchStates k s).knot = s.knot := by
  unfold switchStates; split <;> simp
@[simp] theorem switchStates_map (k : Nat) (s : State) : (switchStates k s).map = s.map := by
  unfold switchStates; split <;> simp
@[simp] theorem switchStates_former (k : Nat) (s : State) : (switchStates k s).former = s.former := by
  unfold switchStates; split <;> simp
@[simp] theorem switchStates_pace (k : Nat) (s : State) : (switchStates k s).pace = s.pace := by
  unfold switchStates; split <;> simp
@[simp] theorem switchStates_ply (k : Nat) (s : State) : (switchStates k s).ply = s.ply := by
  unfold switchStates; split <;> simp
@[simp] theorem switchStates_pending (k : Nat) (s : State) : (switchStates k s).pending = s.pending := by
  unfold switchStates; split <;> simp
@[simp] theorem switchBank_start (k p : Nat) (s : State) : ((switchBank k p s).1).start = s.start := by
  unfold switchBank; dsimp only; split <;> simp
@[simp] theorem switchBank_pending (k p : Nat) (s : State) : ((switchBank k p s).1).pending = s.pending := by
  unfold switchBank; dsimp only; split <;> simp
@[simp] theorem switchStaged_start (p : Nat) (s : State) : ((switchStaged p s).1).start = s.start := by
  unfold switchStaged; split <;> simp
@[simp] theorem switchStaged_pending (p : Nat) (s : State) : ((switchStaged p s).1).pending = s.pending := by
  unfold switchStaged; split <;> simp
@[simp] theorem setCuts_start (l : List Cut) (s : State) : (setCuts l s).start = s.start := by
  simp [setCuts]
@[simp] theorem setCuts_station (l : List Cut) (s : State) : (setCuts l s).station = s.station := by
  simp [setCuts]
@[simp] theorem setCuts_length (l : List Cut) (s : State) : (setCuts l s).length = s.length := by
  simp [setCuts]
@[simp] theorem setCuts_marks (l : List Cut) (s : State) : (setCuts l s).marks = s.marks := by
  simp [setCuts]
@[simp] theorem setCuts_twist (l : List Cut) (s : State) : (setCuts l s).twist = s.twist := by
  simp [setCuts]
@[simp] theorem setCuts_knot (l : List Cut) (s : State) : (setCuts l s).knot = s.knot := by
  simp [setCuts]
@[simp] theorem setCuts_map (l : List Cut) (s : State) : (setCuts l s).map = s.map := by
  simp [setCuts]
@[simp] theorem setCuts_banks (l : List Cut) (s : State) : (setCuts l s).banks = s.banks := by
  simp [setCuts]
@[simp] theorem setCuts_pace (l : List Cut) (s : State) : (setCuts l s).pace = s.pace := by
  simp [setCuts]
@[simp] theorem setCuts_ply (l : List Cut) (s : State) : (setCuts l s).ply = s.ply := by
  simp [setCuts]
@[simp] theorem setCuts_pending (l : List Cut) (s : State) : (setCuts l s).pending = s.pending := by
  simp [setCuts]
@[simp] theorem refuseCut_start (s : State) : (refuseCut s).start = s.start := by
  simp [refuseCut]
@[simp] theorem refuseCut_station (s : State) : (refuseCut s).station = s.station := by
  simp [refuseCut]
@[simp] theorem refuseCut_length (s : State) : (refuseCut s).length = s.length := by
  simp [refuseCut]
@[simp] theorem refuseCut_marks (s : State) : (refuseCut s).marks = s.marks := by
  simp [refuseCut]
@[simp] theorem refuseCut_twist (s : State) : (refuseCut s).twist = s.twist := by
  simp [refuseCut]
@[simp] theorem refuseCut_knot (s : State) : (refuseCut s).knot = s.knot := by
  simp [refuseCut]
@[simp] theorem refuseCut_map (s : State) : (refuseCut s).map = s.map := by
  simp [refuseCut]
@[simp] theorem refuseCut_banks (s : State) : (refuseCut s).banks = s.banks := by
  simp [refuseCut]
@[simp] theorem refuseCut_pace (s : State) : (refuseCut s).pace = s.pace := by
  simp [refuseCut]
@[simp] theorem refuseCut_ply (s : State) : (refuseCut s).ply = s.ply := by
  simp [refuseCut]
@[simp] theorem refuseCut_pending (s : State) : (refuseCut s).pending = s.pending := by
  simp [refuseCut]
@[simp] theorem mapOpen_start (f : PackageRecord → PackageRecord) (s : State) : (mapOpen f s).start = s.start := by
  simp [mapOpen]
@[simp] theorem mapOpen_station (f : PackageRecord → PackageRecord) (s : State) : (mapOpen f s).station = s.station := by
  simp [mapOpen]
@[simp] theorem mapOpen_length (f : PackageRecord → PackageRecord) (s : State) : (mapOpen f s).length = s.length := by
  simp [mapOpen]
@[simp] theorem mapOpen_marks (f : PackageRecord → PackageRecord) (s : State) : (mapOpen f s).marks = s.marks := by
  simp [mapOpen]
@[simp] theorem mapOpen_twist (f : PackageRecord → PackageRecord) (s : State) : (mapOpen f s).twist = s.twist := by
  simp [mapOpen]
@[simp] theorem mapOpen_knot (f : PackageRecord → PackageRecord) (s : State) : (mapOpen f s).knot = s.knot := by
  simp [mapOpen]
@[simp] theorem mapOpen_map (f : PackageRecord → PackageRecord) (s : State) : (mapOpen f s).map = s.map := by
  simp [mapOpen]
@[simp] theorem mapOpen_banks (f : PackageRecord → PackageRecord) (s : State) : (mapOpen f s).banks = s.banks := by
  simp [mapOpen]
@[simp] theorem mapOpen_pace (f : PackageRecord → PackageRecord) (s : State) : (mapOpen f s).pace = s.pace := by
  simp [mapOpen]
@[simp] theorem mapOpen_ply (f : PackageRecord → PackageRecord) (s : State) : (mapOpen f s).ply = s.ply := by
  simp [mapOpen]
@[simp] theorem mapOpen_pending (f : PackageRecord → PackageRecord) (s : State) : (mapOpen f s).pending = s.pending := by
  simp [mapOpen]
@[simp] theorem queueReport_start (s : State) (r : PackageRecord) : (queueReport s r).start = s.start := by
  simp [queueReport]
@[simp] theorem queueReport_length (s : State) (r : PackageRecord) : (queueReport s r).length = s.length := by
  simp [queueReport]
@[simp] theorem queueReport_marks (s : State) (r : PackageRecord) : (queueReport s r).marks = s.marks := by
  simp [queueReport]
@[simp] theorem queueReport_twist (s : State) (r : PackageRecord) : (queueReport s r).twist = s.twist := by
  simp [queueReport]
@[simp] theorem queueReport_knot (s : State) (r : PackageRecord) : (queueReport s r).knot = s.knot := by
  simp [queueReport]
@[simp] theorem queueReport_map (s : State) (r : PackageRecord) : (queueReport s r).map = s.map := by
  simp [queueReport]
@[simp] theorem queueReport_banks (s : State) (r : PackageRecord) : (queueReport s r).banks = s.banks := by
  simp [queueReport]
@[simp] theorem queueReport_pace (s : State) (r : PackageRecord) : (queueReport s r).pace = s.pace := by
  simp [queueReport]
@[simp] theorem queueReport_pending (s : State) (r : PackageRecord) : (queueReport s r).pending = s.pending := by
  simp [queueReport]
@[simp] theorem requeueUnsent_start (s : State) : (requeueUnsent s).start = s.start :=
  foldl_keeps (fun t => t.start) _ (fun _ _ => by simp) _ s
@[simp] theorem requeueUnsent_length (s : State) : (requeueUnsent s).length = s.length :=
  foldl_keeps (fun t => t.length) _ (fun _ _ => by simp) _ s
@[simp] theorem requeueUnsent_marks (s : State) : (requeueUnsent s).marks = s.marks :=
  foldl_keeps (fun t => t.marks) _ (fun _ _ => by simp) _ s
@[simp] theorem requeueUnsent_twist (s : State) : (requeueUnsent s).twist = s.twist :=
  foldl_keeps (fun t => t.twist) _ (fun _ _ => by simp) _ s
@[simp] theorem requeueUnsent_knot (s : State) : (requeueUnsent s).knot = s.knot :=
  foldl_keeps (fun t => t.knot) _ (fun _ _ => by simp) _ s
@[simp] theorem requeueUnsent_map (s : State) : (requeueUnsent s).map = s.map :=
  foldl_keeps (fun t => t.map) _ (fun _ _ => by simp) _ s
@[simp] theorem requeueUnsent_banks (s : State) : (requeueUnsent s).banks = s.banks :=
  foldl_keeps (fun t => t.banks) _ (fun _ _ => by simp) _ s
@[simp] theorem requeueUnsent_pace (s : State) : (requeueUnsent s).pace = s.pace :=
  foldl_keeps (fun t => t.pace) _ (fun _ _ => by simp) _ s
@[simp] theorem requeueUnsent_pending (s : State) : (requeueUnsent s).pending = s.pending :=
  foldl_keeps (fun t => t.pending) _ (fun _ _ => by simp) _ s
@[simp] theorem closeRecord_start (k : Nat) (r : CloseReason) (p : PackageRecord) (s : State) : (closeRecord k r p s).start = s.start := by
  simp [closeRecord]
@[simp] theorem closeRecord_length (k : Nat) (r : CloseReason) (p : PackageRecord) (s : State) : (closeRecord k r p s).length = s.length := by
  simp [closeRecord]
@[simp] theorem closeRecord_marks (k : Nat) (r : CloseReason) (p : PackageRecord) (s : State) : (closeRecord k r p s).marks = s.marks := by
  simp [closeRecord]
@[simp] theorem closeRecord_twist (k : Nat) (r : CloseReason) (p : PackageRecord) (s : State) : (closeRecord k r p s).twist = s.twist := by
  simp [closeRecord]
@[simp] theorem closeRecord_knot (k : Nat) (r : CloseReason) (p : PackageRecord) (s : State) : (closeRecord k r p s).knot = s.knot := by
  simp [closeRecord]
@[simp] theorem closeRecord_banks (k : Nat) (r : CloseReason) (p : PackageRecord) (s : State) : (closeRecord k r p s).banks = s.banks := by
  simp [closeRecord]
@[simp] theorem closeRecord_pace (k : Nat) (r : CloseReason) (p : PackageRecord) (s : State) : (closeRecord k r p s).pace = s.pace := by
  simp [closeRecord]
@[simp] theorem closeRecord_pending (k : Nat) (r : CloseReason) (p : PackageRecord) (s : State) : (closeRecord k r p s).pending = s.pending := by
  simp [closeRecord]
@[simp] theorem openRecord_start (k x : Nat) (s : State) : (openRecord k x s).start = s.start := by
  simp [openRecord]
@[simp] theorem openRecord_station (k x : Nat) (s : State) : (openRecord k x s).station = s.station := by
  simp [openRecord]
@[simp] theorem openRecord_length (k x : Nat) (s : State) : (openRecord k x s).length = s.length := by
  simp [openRecord]
@[simp] theorem openRecord_twist (k x : Nat) (s : State) : (openRecord k x s).twist = s.twist := by
  simp [openRecord]
@[simp] theorem openRecord_knot (k x : Nat) (s : State) : (openRecord k x s).knot = s.knot := by
  simp [openRecord]
@[simp] theorem openRecord_map (k x : Nat) (s : State) : (openRecord k x s).map = s.map := by
  simp [openRecord]
@[simp] theorem openRecord_banks (k x : Nat) (s : State) : (openRecord k x s).banks = s.banks := by
  simp [openRecord]
@[simp] theorem openRecord_pace (k x : Nat) (s : State) : (openRecord k x s).pace = s.pace := by
  simp [openRecord]
@[simp] theorem openRecord_ply (k x : Nat) (s : State) : (openRecord k x s).ply = s.ply := by
  simp [openRecord]
@[simp] theorem openRecord_pending (k x : Nat) (s : State) : (openRecord k x s).pending = s.pending := by
  simp [openRecord]
@[simp] theorem extendCut_start (i c : Nat) (w : Bool) (s : State) : (extendCut i c w s).start = s.start := by
  simp [extendCut]
@[simp] theorem extendCut_station (i c : Nat) (w : Bool) (s : State) : (extendCut i c w s).station = s.station := by
  simp [extendCut]
@[simp] theorem extendCut_length (i c : Nat) (w : Bool) (s : State) : (extendCut i c w s).length = s.length := by
  simp [extendCut]
@[simp] theorem extendCut_marks (i c : Nat) (w : Bool) (s : State) : (extendCut i c w s).marks = s.marks := by
  simp [extendCut]
@[simp] theorem extendCut_twist (i c : Nat) (w : Bool) (s : State) : (extendCut i c w s).twist = s.twist := by
  simp [extendCut]
@[simp] theorem extendCut_knot (i c : Nat) (w : Bool) (s : State) : (extendCut i c w s).knot = s.knot := by
  simp [extendCut]
@[simp] theorem extendCut_map (i c : Nat) (w : Bool) (s : State) : (extendCut i c w s).map = s.map := by
  simp [extendCut]
@[simp] theorem extendCut_banks (i c : Nat) (w : Bool) (s : State) : (extendCut i c w s).banks = s.banks := by
  simp [extendCut]
@[simp] theorem extendCut_pace (i c : Nat) (w : Bool) (s : State) : (extendCut i c w s).pace = s.pace := by
  simp [extendCut]
@[simp] theorem extendCut_ply (i c : Nat) (w : Bool) (s : State) : (extendCut i c w s).ply = s.ply := by
  simp [extendCut]
@[simp] theorem extendCut_pending (i c : Nat) (w : Bool) (s : State) : (extendCut i c w s).pending = s.pending := by
  simp [extendCut]
@[simp] theorem firmCuts_start (s : State) : (firmCuts s).start = s.start := by
  simp [firmCuts]
@[simp] theorem firmCuts_station (s : State) : (firmCuts s).station = s.station := by
  simp [firmCuts]
@[simp] theorem firmCuts_length (s : State) : (firmCuts s).length = s.length := by
  simp [firmCuts]
@[simp] theorem firmCuts_marks (s : State) : (firmCuts s).marks = s.marks := by
  simp [firmCuts]
@[simp] theorem firmCuts_twist (s : State) : (firmCuts s).twist = s.twist := by
  simp [firmCuts]
@[simp] theorem firmCuts_knot (s : State) : (firmCuts s).knot = s.knot := by
  simp [firmCuts]
@[simp] theorem firmCuts_map (s : State) : (firmCuts s).map = s.map := by
  simp [firmCuts]
@[simp] theorem firmCuts_banks (s : State) : (firmCuts s).banks = s.banks := by
  simp [firmCuts]
@[simp] theorem firmCuts_pace (s : State) : (firmCuts s).pace = s.pace := by
  simp [firmCuts]
@[simp] theorem firmCuts_ply (s : State) : (firmCuts s).ply = s.ply := by
  simp [firmCuts]
@[simp] theorem firmCuts_pending (s : State) : (firmCuts s).pending = s.pending := by
  simp [firmCuts]
@[simp] theorem closeAtEnd_start (s : State) : (closeAtEnd s).start = s.start := by
  unfold closeAtEnd; split <;> simp
@[simp] theorem closeAtEnd_length (s : State) : (closeAtEnd s).length = s.length := by
  unfold closeAtEnd; split <;> simp
@[simp] theorem closeAtEnd_marks (s : State) : (closeAtEnd s).marks = s.marks := by
  unfold closeAtEnd; split <;> simp
@[simp] theorem closeAtEnd_twist (s : State) : (closeAtEnd s).twist = s.twist := by
  unfold closeAtEnd; split <;> simp
@[simp] theorem closeAtEnd_knot (s : State) : (closeAtEnd s).knot = s.knot := by
  unfold closeAtEnd; split <;> simp
@[simp] theorem closeAtEnd_banks (s : State) : (closeAtEnd s).banks = s.banks := by
  unfold closeAtEnd; split <;> simp
@[simp] theorem closeAtEnd_pace (s : State) : (closeAtEnd s).pace = s.pace := by
  unfold closeAtEnd; split <;> simp
@[simp] theorem closeAtEnd_pending (s : State) : (closeAtEnd s).pending = s.pending := by
  unfold closeAtEnd; split <;> simp
@[simp] theorem resumeOwn_start (l : List LocalCause) (s : State) : (resumeOwn l s).start = s.start := by
  unfold resumeOwn; split <;> simp
@[simp] theorem resumeOwn_length (l : List LocalCause) (s : State) : (resumeOwn l s).length = s.length := by
  unfold resumeOwn; split <;> simp
@[simp] theorem resumeOwn_marks (l : List LocalCause) (s : State) : (resumeOwn l s).marks = s.marks := by
  unfold resumeOwn; split <;> simp
@[simp] theorem resumeOwn_twist (l : List LocalCause) (s : State) : (resumeOwn l s).twist = s.twist := by
  unfold resumeOwn; split <;> simp
@[simp] theorem resumeOwn_knot (l : List LocalCause) (s : State) : (resumeOwn l s).knot = s.knot := by
  unfold resumeOwn; split <;> simp
@[simp] theorem resumeOwn_map (l : List LocalCause) (s : State) : (resumeOwn l s).map = s.map := by
  unfold resumeOwn; split <;> simp
@[simp] theorem resumeOwn_banks (l : List LocalCause) (s : State) : (resumeOwn l s).banks = s.banks := by
  unfold resumeOwn; split <;> simp
@[simp] theorem resumeOwn_pace (l : List LocalCause) (s : State) : (resumeOwn l s).pace = s.pace := by
  unfold resumeOwn; split <;> simp
@[simp] theorem resumeOwn_pending (l : List LocalCause) (s : State) : (resumeOwn l s).pending = s.pending := by
  unfold resumeOwn; split <;> simp
@[simp] theorem takeGo_start (o : Nat) (s : State) : (takeGo o s).start = s.start := by
  simp [takeGo]
@[simp] theorem takeGo_marks (o : Nat) (s : State) : (takeGo o s).marks = s.marks := by
  simp [takeGo]
@[simp] theorem takeGo_map (o : Nat) (s : State) : (takeGo o s).map = s.map := by
  simp [takeGo]
@[simp] theorem takeGo_banks (o : Nat) (s : State) : (takeGo o s).banks = s.banks := by
  simp [takeGo]
@[simp] theorem takeGo_pending (o : Nat) (s : State) : (takeGo o s).pending = s.pending := by
  simp [takeGo]
@[simp] theorem clearCauses_start (f : Bool) (s : State) : (clearCauses f s).start = s.start := by
  unfold clearCauses; split <;> simp
@[simp] theorem clearCauses_marks (f : Bool) (s : State) : (clearCauses f s).marks = s.marks := by
  unfold clearCauses; split <;> simp
@[simp] theorem clearCauses_twist (f : Bool) (s : State) : (clearCauses f s).twist = s.twist := by
  unfold clearCauses; split <;> simp
@[simp] theorem clearCauses_knot (f : Bool) (s : State) : (clearCauses f s).knot = s.knot := by
  unfold clearCauses; split <;> simp
@[simp] theorem clearCauses_map (f : Bool) (s : State) : (clearCauses f s).map = s.map := by
  unfold clearCauses; split <;> simp
@[simp] theorem clearCauses_banks (f : Bool) (s : State) : (clearCauses f s).banks = s.banks := by
  unfold clearCauses; split <;> simp
@[simp] theorem clearCauses_pending (f : Bool) (s : State) : (clearCauses f s).pending = s.pending := by
  unfold clearCauses; split <;> simp
@[simp] theorem takeResume_start (x : Nat) (s : State) : (takeResume x s).start = s.start := by
  unfold takeResume; split <;> simp
@[simp] theorem takeResume_marks (x : Nat) (s : State) : (takeResume x s).marks = s.marks := by
  unfold takeResume; split <;> simp
@[simp] theorem takeResume_twist (x : Nat) (s : State) : (takeResume x s).twist = s.twist := by
  unfold takeResume; split <;> simp
@[simp] theorem takeResume_knot (x : Nat) (s : State) : (takeResume x s).knot = s.knot := by
  unfold takeResume; split <;> simp
@[simp] theorem takeResume_map (x : Nat) (s : State) : (takeResume x s).map = s.map := by
  unfold takeResume; split <;> simp
@[simp] theorem takeResume_banks (x : Nat) (s : State) : (takeResume x s).banks = s.banks := by
  unfold takeResume; split <;> simp
@[simp] theorem takeResume_pending (x : Nat) (s : State) : (takeResume x s).pending = s.pending := by
  unfold takeResume; split <;> simp
@[simp] theorem computeOffers_start (s : State) : (computeOffers s).start = s.start := by
  simp [computeOffers]
@[simp] theorem computeOffers_station (s : State) : (computeOffers s).station = s.station := by
  simp [computeOffers]
@[simp] theorem computeOffers_length (s : State) : (computeOffers s).length = s.length := by
  simp [computeOffers]
@[simp] theorem computeOffers_marks (s : State) : (computeOffers s).marks = s.marks := by
  simp [computeOffers]
@[simp] theorem computeOffers_twist (s : State) : (computeOffers s).twist = s.twist := by
  simp [computeOffers]
@[simp] theorem computeOffers_knot (s : State) : (computeOffers s).knot = s.knot := by
  simp [computeOffers]
@[simp] theorem computeOffers_map (s : State) : (computeOffers s).map = s.map := by
  simp [computeOffers]
@[simp] theorem computeOffers_former (s : State) : (computeOffers s).former = s.former := by
  simp [computeOffers]
@[simp] theorem computeOffers_banks (s : State) : (computeOffers s).banks = s.banks := by
  simp [computeOffers]
@[simp] theorem computeOffers_ply (s : State) : (computeOffers s).ply = s.ply := by
  simp [computeOffers]
@[simp] theorem computeOffers_pending (s : State) : (computeOffers s).pending = s.pending := by
  simp [computeOffers]
@[simp] theorem tickPeriod_start (s : State) : (tickPeriod s).start = s.start := by
  unfold tickPeriod; dsimp only; (repeat' split) <;> simp
@[simp] theorem tickPeriod_station (s : State) : (tickPeriod s).station = s.station := by
  unfold tickPeriod; dsimp only; (repeat' split) <;> simp
@[simp] theorem tickPeriod_length (s : State) : (tickPeriod s).length = s.length := by
  unfold tickPeriod; dsimp only; (repeat' split) <;> simp
@[simp] theorem tickPeriod_marks (s : State) : (tickPeriod s).marks = s.marks := by
  unfold tickPeriod; dsimp only; (repeat' split) <;> simp
@[simp] theorem tickPeriod_twist (s : State) : (tickPeriod s).twist = s.twist := by
  unfold tickPeriod; dsimp only; (repeat' split) <;> simp
@[simp] theorem tickPeriod_knot (s : State) : (tickPeriod s).knot = s.knot := by
  unfold tickPeriod; dsimp only; (repeat' split) <;> simp
@[simp] theorem tickPeriod_map (s : State) : (tickPeriod s).map = s.map := by
  unfold tickPeriod; dsimp only; (repeat' split) <;> simp
@[simp] theorem tickPeriod_former (s : State) : (tickPeriod s).former = s.former := by
  unfold tickPeriod; dsimp only; (repeat' split) <;> simp
@[simp] theorem tickPeriod_banks (s : State) : (tickPeriod s).banks = s.banks := by
  unfold tickPeriod; dsimp only; (repeat' split) <;> simp
@[simp] theorem tickPeriod_pending (s : State) : (tickPeriod s).pending = s.pending := by
  unfold tickPeriod; dsimp only; (repeat' split) <;> simp
@[simp] theorem tickSetpoint_start (s : State) : (tickSetpoint s).start = s.start := by
  simp [tickSetpoint]
@[simp] theorem tickSetpoint_station (s : State) : (tickSetpoint s).station = s.station := by
  simp [tickSetpoint]
@[simp] theorem tickSetpoint_length (s : State) : (tickSetpoint s).length = s.length := by
  simp [tickSetpoint]
@[simp] theorem tickSetpoint_marks (s : State) : (tickSetpoint s).marks = s.marks := by
  simp [tickSetpoint]
@[simp] theorem tickSetpoint_knot (s : State) : (tickSetpoint s).knot = s.knot := by
  simp [tickSetpoint]
@[simp] theorem tickSetpoint_map (s : State) : (tickSetpoint s).map = s.map := by
  simp [tickSetpoint]
@[simp] theorem tickSetpoint_former (s : State) : (tickSetpoint s).former = s.former := by
  simp [tickSetpoint]
@[simp] theorem tickSetpoint_banks (s : State) : (tickSetpoint s).banks = s.banks := by
  simp [tickSetpoint]
@[simp] theorem tickSetpoint_pace (s : State) : (tickSetpoint s).pace = s.pace := by
  simp [tickSetpoint]
@[simp] theorem tickSetpoint_ply (s : State) : (tickSetpoint s).ply = s.ply := by
  simp [tickSetpoint]
@[simp] theorem tickSetpoint_pending (s : State) : (tickSetpoint s).pending = s.pending := by
  simp [tickSetpoint]
@[simp] theorem countArrivalDropped_start (s : State) : (countArrivalDropped s).start = s.start := by
  simp [countArrivalDropped]
@[simp] theorem countArrivalDropped_station (s : State) : (countArrivalDropped s).station = s.station := by
  simp [countArrivalDropped]
@[simp] theorem countArrivalDropped_length (s : State) : (countArrivalDropped s).length = s.length := by
  simp [countArrivalDropped]
@[simp] theorem countArrivalDropped_marks (s : State) : (countArrivalDropped s).marks = s.marks := by
  simp [countArrivalDropped]
@[simp] theorem countArrivalDropped_twist (s : State) : (countArrivalDropped s).twist = s.twist := by
  simp [countArrivalDropped]
@[simp] theorem countArrivalDropped_knot (s : State) : (countArrivalDropped s).knot = s.knot := by
  simp [countArrivalDropped]
@[simp] theorem countArrivalDropped_map (s : State) : (countArrivalDropped s).map = s.map := by
  simp [countArrivalDropped]
@[simp] theorem countArrivalDropped_former (s : State) : (countArrivalDropped s).former = s.former := by
  simp [countArrivalDropped]
@[simp] theorem countArrivalDropped_banks (s : State) : (countArrivalDropped s).banks = s.banks := by
  simp [countArrivalDropped]
@[simp] theorem countArrivalDropped_ply (s : State) : (countArrivalDropped s).ply = s.ply := by
  simp [countArrivalDropped]
@[simp] theorem countArrivalDropped_pending (s : State) : (countArrivalDropped s).pending = s.pending := by
  simp [countArrivalDropped]
@[simp] theorem joinArrivals_start (a : Arrival) (s : State) : (joinArrivals a s).start = s.start := by
  unfold joinArrivals; dsimp only; (repeat' split) <;> simp
@[simp] theorem joinArrivals_marks (a : Arrival) (s : State) : (joinArrivals a s).marks = s.marks := by
  unfold joinArrivals; dsimp only; (repeat' split) <;> simp
@[simp] theorem joinArrivals_twist (a : Arrival) (s : State) : (joinArrivals a s).twist = s.twist := by
  unfold joinArrivals; dsimp only; (repeat' split) <;> simp
@[simp] theorem joinArrivals_map (a : Arrival) (s : State) : (joinArrivals a s).map = s.map := by
  unfold joinArrivals; dsimp only; (repeat' split) <;> simp
@[simp] theorem joinArrivals_banks (a : Arrival) (s : State) : (joinArrivals a s).banks = s.banks := by
  unfold joinArrivals; dsimp only; (repeat' split) <;> simp
@[simp] theorem joinArrivals_pending (a : Arrival) (s : State) : (joinArrivals a s).pending = s.pending := by
  unfold joinArrivals; dsimp only; (repeat' split) <;> simp
@[simp] theorem sendPick_start (p : Pick) (n : Nat) (s : State) : (sendPick p n s).start = s.start := by
  unfold sendPick; dsimp only; (repeat' split) <;> simp
@[simp] theorem sendPick_station (p : Pick) (n : Nat) (s : State) : (sendPick p n s).station = s.station := by
  unfold sendPick; dsimp only; (repeat' split) <;> simp
@[simp] theorem sendPick_length (p : Pick) (n : Nat) (s : State) : (sendPick p n s).length = s.length := by
  unfold sendPick; dsimp only; (repeat' split) <;> simp
@[simp] theorem sendPick_marks (p : Pick) (n : Nat) (s : State) : (sendPick p n s).marks = s.marks := by
  unfold sendPick; dsimp only; (repeat' split) <;> simp
@[simp] theorem sendPick_twist (p : Pick) (n : Nat) (s : State) : (sendPick p n s).twist = s.twist := by
  unfold sendPick; dsimp only; (repeat' split) <;> simp
@[simp] theorem sendPick_knot (p : Pick) (n : Nat) (s : State) : (sendPick p n s).knot = s.knot := by
  unfold sendPick; dsimp only; (repeat' split) <;> simp
@[simp] theorem sendPick_map (p : Pick) (n : Nat) (s : State) : (sendPick p n s).map = s.map := by
  unfold sendPick; dsimp only; (repeat' split) <;> simp
@[simp] theorem sendPick_former (p : Pick) (n : Nat) (s : State) : (sendPick p n s).former = s.former := by
  unfold sendPick; dsimp only; (repeat' split) <;> simp
@[simp] theorem sendPick_banks (p : Pick) (n : Nat) (s : State) : (sendPick p n s).banks = s.banks := by
  unfold sendPick; dsimp only; (repeat' split) <;> simp
@[simp] theorem sendPick_pace (p : Pick) (n : Nat) (s : State) : (sendPick p n s).pace = s.pace := by
  unfold sendPick; dsimp only; (repeat' split) <;> simp
@[simp] theorem sendPick_pending (p : Pick) (n : Nat) (s : State) : (sendPick p n s).pending = s.pending := by
  unfold sendPick; dsimp only; (repeat' split) <;> simp
@[simp] theorem hearFrame_start (f : RxFate) (s : State) : (hearFrame f s).start = s.start := by
  simp [hearFrame]
@[simp] theorem hearFrame_station (f : RxFate) (s : State) : (hearFrame f s).station = s.station := by
  simp [hearFrame]
@[simp] theorem hearFrame_length (f : RxFate) (s : State) : (hearFrame f s).length = s.length := by
  simp [hearFrame]
@[simp] theorem hearFrame_marks (f : RxFate) (s : State) : (hearFrame f s).marks = s.marks := by
  simp [hearFrame]
@[simp] theorem hearFrame_twist (f : RxFate) (s : State) : (hearFrame f s).twist = s.twist := by
  simp [hearFrame]
@[simp] theorem hearFrame_knot (f : RxFate) (s : State) : (hearFrame f s).knot = s.knot := by
  simp [hearFrame]
@[simp] theorem hearFrame_map (f : RxFate) (s : State) : (hearFrame f s).map = s.map := by
  simp [hearFrame]
@[simp] theorem hearFrame_former (f : RxFate) (s : State) : (hearFrame f s).former = s.former := by
  simp [hearFrame]
@[simp] theorem hearFrame_banks (f : RxFate) (s : State) : (hearFrame f s).banks = s.banks := by
  simp [hearFrame]
@[simp] theorem hearFrame_pace (f : RxFate) (s : State) : (hearFrame f s).pace = s.pace := by
  simp [hearFrame]
@[simp] theorem hearFrame_pending (f : RxFate) (s : State) : (hearFrame f s).pending = s.pending := by
  simp [hearFrame]
@[simp] theorem lineError_start (e : LineError) (a b : Nat) (s : State) : (lineError e a b s).start = s.start := by
  simp [lineError]
@[simp] theorem lineError_station (e : LineError) (a b : Nat) (s : State) : (lineError e a b s).station = s.station := by
  simp [lineError]
@[simp] theorem lineError_length (e : LineError) (a b : Nat) (s : State) : (lineError e a b s).length = s.length := by
  simp [lineError]
@[simp] theorem lineError_marks (e : LineError) (a b : Nat) (s : State) : (lineError e a b s).marks = s.marks := by
  simp [lineError]
@[simp] theorem lineError_twist (e : LineError) (a b : Nat) (s : State) : (lineError e a b s).twist = s.twist := by
  simp [lineError]
@[simp] theorem lineError_knot (e : LineError) (a b : Nat) (s : State) : (lineError e a b s).knot = s.knot := by
  simp [lineError]
@[simp] theorem lineError_map (e : LineError) (a b : Nat) (s : State) : (lineError e a b s).map = s.map := by
  simp [lineError]
@[simp] theorem lineError_former (e : LineError) (a b : Nat) (s : State) : (lineError e a b s).former = s.former := by
  simp [lineError]
@[simp] theorem lineError_banks (e : LineError) (a b : Nat) (s : State) : (lineError e a b s).banks = s.banks := by
  simp [lineError]
@[simp] theorem lineError_pace (e : LineError) (a b : Nat) (s : State) : (lineError e a b s).pace = s.pace := by
  simp [lineError]
@[simp] theorem lineError_pending (e : LineError) (a b : Nat) (s : State) : (lineError e a b s).pending = s.pending := by
  simp [lineError]
@[simp] theorem holdPlace_start (h : Bool) (s : State) : (holdPlace h s).start = s.start := by
  simp [holdPlace]
@[simp] theorem holdPlace_station (h : Bool) (s : State) : (holdPlace h s).station = s.station := by
  simp [holdPlace]
@[simp] theorem holdPlace_length (h : Bool) (s : State) : (holdPlace h s).length = s.length := by
  simp [holdPlace]
@[simp] theorem holdPlace_marks (h : Bool) (s : State) : (holdPlace h s).marks = s.marks := by
  simp [holdPlace]
@[simp] theorem holdPlace_twist (h : Bool) (s : State) : (holdPlace h s).twist = s.twist := by
  simp [holdPlace]
@[simp] theorem holdPlace_knot (h : Bool) (s : State) : (holdPlace h s).knot = s.knot := by
  simp [holdPlace]
@[simp] theorem holdPlace_map (h : Bool) (s : State) : (holdPlace h s).map = s.map := by
  simp [holdPlace]
@[simp] theorem holdPlace_former (h : Bool) (s : State) : (holdPlace h s).former = s.former := by
  simp [holdPlace]
@[simp] theorem holdPlace_banks (h : Bool) (s : State) : (holdPlace h s).banks = s.banks := by
  simp [holdPlace]
@[simp] theorem holdPlace_pace (h : Bool) (s : State) : (holdPlace h s).pace = s.pace := by
  simp [holdPlace]
@[simp] theorem holdPlace_pending (h : Bool) (s : State) : (holdPlace h s).pending = s.pending := by
  simp [holdPlace]
@[simp] theorem queueAnswer_start (d : Nat) (p : List Byte) (r : Bool) (s : State) : (queueAnswer d p r s).start = s.start := by
  simp [queueAnswer]
@[simp] theorem queueAnswer_station (d : Nat) (p : List Byte) (r : Bool) (s : State) : (queueAnswer d p r s).station = s.station := by
  simp [queueAnswer]
@[simp] theorem queueAnswer_length (d : Nat) (p : List Byte) (r : Bool) (s : State) : (queueAnswer d p r s).length = s.length := by
  simp [queueAnswer]
@[simp] theorem queueAnswer_marks (d : Nat) (p : List Byte) (r : Bool) (s : State) : (queueAnswer d p r s).marks = s.marks := by
  simp [queueAnswer]
@[simp] theorem queueAnswer_twist (d : Nat) (p : List Byte) (r : Bool) (s : State) : (queueAnswer d p r s).twist = s.twist := by
  simp [queueAnswer]
@[simp] theorem queueAnswer_knot (d : Nat) (p : List Byte) (r : Bool) (s : State) : (queueAnswer d p r s).knot = s.knot := by
  simp [queueAnswer]
@[simp] theorem queueAnswer_map (d : Nat) (p : List Byte) (r : Bool) (s : State) : (queueAnswer d p r s).map = s.map := by
  simp [queueAnswer]
@[simp] theorem queueAnswer_former (d : Nat) (p : List Byte) (r : Bool) (s : State) : (queueAnswer d p r s).former = s.former := by
  simp [queueAnswer]
@[simp] theorem queueAnswer_banks (d : Nat) (p : List Byte) (r : Bool) (s : State) : (queueAnswer d p r s).banks = s.banks := by
  simp [queueAnswer]
@[simp] theorem queueAnswer_pace (d : Nat) (p : List Byte) (r : Bool) (s : State) : (queueAnswer d p r s).pace = s.pace := by
  simp [queueAnswer]
@[simp] theorem queueAnswer_pending (d : Nat) (p : List Byte) (r : Bool) (s : State) : (queueAnswer d p r s).pending = s.pending := by
  simp [queueAnswer]

end Sys2Proof.Machine
end

