-- ==== Sys2Proof/Laws/Calm.lean ====
section
/-!
SUPPORT. Views that the blocks' work on one another does not touch. A calm view reads neither the cause
set, the map, the former, the banks, the marks, twist or knot state, the queue, nor the run pace, arrivals,
and dwell: the configuration, the commands waiting, the position and the listen table are calm. Each
operation below keeps every calm view.
-/

namespace Sys2Proof.Machine

/-- A view that none of the updates below changes. -/
structure Calm {β : Type} (view : State → β) : Prop where
  station : ∀ s b, view (s.setStation b) = view s
  marks   : ∀ s b, view (s.setMarks b) = view s
  twist   : ∀ s b, view (s.setTwist b) = view s
  knot    : ∀ s b, view (s.setKnot b) = view s
  map     : ∀ s b, view (s.setMap b) = view s
  former  : ∀ s b, view (s.setFormer b) = view s
  banks   : ∀ s b, view (s.setBanks b) = view s
  ply     : ∀ s b, view (s.setPly b) = view s
  pace    : ∀ (s : State) (b : Pace), b.listen = s.pace.listen → view (s.setPace b) = view s
  dwell   : ∀ (s : State) (b : Length), b.acc = s.length.acc → b.source = s.length.source →
    view (s.setLength b) = view s

theorem calm_start : Calm (fun s => s.start) := by constructor <;> intros <;> rfl
theorem calm_pending : Calm (fun s => s.pending) := by constructor <;> intros <;> rfl
theorem calm_acc : Calm (fun s => s.length.acc) := by constructor <;> intros <;> first | rfl | assumption
theorem calm_source : Calm (fun s => s.length.source) := by constructor <;> intros <;> first | rfl | assumption
theorem calm_listen : Calm (fun s => s.pace.listen) := by constructor <;> intros <;> first | rfl | assumption

namespace Calm

variable {β : Type} {view : State → β} (h : Calm view)
include h

theorem refreshPace (s : State) : view (Machine.refreshPace s) = view s := by
  unfold Machine.refreshPace
  split
  · exact (h.pace _ _ (by rfl)).trans (h.ply _ _)
  · rfl

theorem reportDrop (b : TxBody) (s : State) : view (Machine.reportDrop b s) = view s := by
  unfold Machine.reportDrop; split <;> simp [h.station, h.former]

theorem enqueue (b : TxBody) (s : State) : view (Machine.enqueue b s) = view s := by
  unfold Machine.enqueue; dsimp only; (repeat' split) <;> simp [h.ply, h.reportDrop]

theorem changeState (t : StationState) (s : State) : view (Machine.changeState t s) = view s := by
  simp [Machine.changeState, h.station, h.refreshPace]

theorem clearDwell (s : State) : view (Machine.clearDwell s) = view s := by
  unfold Machine.clearDwell; split <;> simp [h.knot, h.dwell]

theorem loadDwell (s : State) : view (Machine.loadDwell s) = view s := by
  simp [Machine.loadDwell, h.dwell]

theorem stopFromReady (s : State) : view (Machine.stopFromReady s) = view s := by
  unfold Machine.stopFromReady
  exact (h.changeState _ _).trans ((h.pace _ _ (by rfl)).trans (h.clearDwell s))

theorem ease (s : State) : view (Machine.ease s) = view s := by
  simp [Machine.ease, h.changeState, h.clearDwell]

theorem resumeRun (s : State) : view (Machine.resumeRun s) = view s := by
  simp [Machine.resumeRun, h.changeState, h.loadDwell]

theorem announce (c : LocalCause) (s : State) : view (Machine.announce c s) = view s := by
  unfold Machine.announce; split <;> simp [h.enqueue]

theorem actSoft (s : State) : view (Machine.actSoft s) = view s := by
  unfold Machine.actSoft; (repeat' split) <;> simp [h.stopFromReady, h.ease]

theorem raiseSoft (c : LocalCause) (s : State) : view (Machine.raiseSoft c s) = view s := by
  unfold Machine.raiseSoft; split <;> simp [h.station, h.announce, h.actSoft]

theorem settleRemoval (s : State) : view (Machine.settleRemoval s) = view s := by
  unfold Machine.settleRemoval; dsimp only; (repeat' split) <;> simp [h.station, h.changeState, h.resumeRun]

theorem handOff (e : MapEntry) (s : State) : view (Machine.handOff e s) = view s := 
  foldl_keeps view _ (fun _ _ => by simp [h.enqueue]) _ s

theorem placeEntry (e : MapEntry) (l : List MapEntry) (b : Bool) (s : State) : view (Machine.placeEntry e l b s) = view s := by
  unfold Machine.placeEntry; dsimp only; split <;> simp [h.map, h.handOff]

theorem countDropped (s : State) : view (Machine.countDropped s) = view s := by
  simp [Machine.countDropped, h.map]

theorem offerRaw (e : MapEntry) (s : State) : view ((Machine.offerRaw e s).1) = view s := by
  unfold Machine.offerRaw; dsimp only; split <;> simp [h.raiseSoft, h.placeEntry, h.countDropped]

theorem mergeLocal (k : EntryKind) (s : State) : view (Machine.mergeLocal k s) = view s := by
  simp [Machine.mergeLocal, h.map]

theorem forgetLocal (k : EntryKind) (s : State) : view (Machine.forgetLocal k s) = view s := by
  simp [Machine.forgetLocal, h.map]

theorem offerLocal (k : EntryKind) (s : State) : view ((Machine.offerLocal k s).1) = view s := by
  unfold Machine.offerLocal; dsimp only; split <;> simp [h.offerRaw, h.forgetLocal]

theorem extendEntry (k : EntryKind) (p c : Nat) (m : Bool) (s : State) : view ((Machine.extendEntry k p c m s).1) = view s := by
  unfold Machine.extendEntry; split <;> simp [h.map]

theorem closeEntry (k : EntryKind) (s : State) : view ((Machine.closeEntry k s).1) = view s := by
  unfold Machine.closeEntry; split <;> simp [h.map, h.handOff]

theorem retain (before : Nat) (s : State) : view (Machine.retain before s) = view s := by
  unfold Machine.retain; split <;> simp [h.map]

theorem testMarkAt (len : Nat) (s : State) : view (Machine.testMarkAt len s) = view s := by
  unfold Machine.testMarkAt; (repeat' split) <;> simp [h.marks]

theorem testMark (s : State) : view (Machine.testMark s) = view s := by
  unfold Machine.testMark; split <;> simp [h.testMarkAt]

theorem retarget (s : State) : view (Machine.retarget s) = view s := by
  simp [Machine.retarget, h.twist]

theorem openWindow (s : State) : view (Machine.openWindow s) = view s := by
  unfold Machine.openWindow; split <;> simp [h.twist]

theorem openRow (s : State) : view (Machine.openRow s) = view s := by
  unfold Machine.openRow; split <;> simp [h.knot]

theorem endTwistRun (s : State) : view ((Machine.endTwistRun s).1) = view s := by
  simp [Machine.endTwistRun, h.twist, h.closeEntry]

theorem switchTwist (o : Nat) (s : State) : view ((Machine.switchTwist o s).1) = view s := by
  unfold Machine.switchTwist; dsimp only; (repeat' split) <;> simp [h.twist, h.retarget, h.openWindow, h.endTwistRun]

theorem closeKnotEntries (s : State) : view ((Machine.closeKnotEntries s).1) = view s := by
  simp [Machine.closeKnotEntries, h.closeEntry]

theorem switchKnot (s : State) : view ((Machine.switchKnot s).1) = view s := by
  unfold Machine.switchKnot; split <;> simp [h.knot, h.closeKnotEntries]

theorem setBank (k : Nat) (b : Bank) (s : State) : view (s.setBank k b) = view s := by
  unfold State.setBank; split <;> simp [h.banks]

theorem switchStates (k : Nat) (s : State) : view (Machine.switchStates k s) = view s := by
  unfold Machine.switchStates; split <;> simp [h.setBank]

theorem switchBank (k p : Nat) (s : State) : view ((Machine.switchBank k p s).1) = view s := by
  unfold Machine.switchBank; dsimp only; split <;> simp [h.marks, h.offerRaw, h.switchTwist, h.switchKnot, h.switchStates]

theorem switchStaged (p : Nat) (s : State) : view ((Machine.switchStaged p s).1) = view s := by
  unfold Machine.switchStaged; split <;> simp [h.switchBank]

theorem setCuts (l : List Cut) (s : State) : view (Machine.setCuts l s) = view s := by
  simp [Machine.setCuts, h.former]

theorem refuseCut (s : State) : view (Machine.refuseCut s) = view s := by
  simp [Machine.refuseCut, h.former]

theorem mapOpen (f : PackageRecord → PackageRecord) (s : State) : view (Machine.mapOpen f s) = view s := by
  simp [Machine.mapOpen, h.former]

theorem queueReport (s : State) (r : PackageRecord) : view (Machine.queueReport s r) = view s := by
  simp [Machine.queueReport, h.former, h.enqueue]

theorem requeueUnsent (s : State) : view (Machine.requeueUnsent s) = view s := 
  foldl_keeps view _ (fun _ _ => by simp [h.queueReport]) _ _

theorem closeRecord (k : Nat) (r : CloseReason) (p : PackageRecord) (s : State) : view (Machine.closeRecord k r p s) = view s := by
  simp [Machine.closeRecord, h.map, h.setCuts, h.mapOpen, h.queueReport, h.requeueUnsent]

theorem openRecord (k x : Nat) (s : State) : view (Machine.openRecord k x s) = view s := by
  simp [Machine.openRecord, h.marks, h.former]

theorem extendCut (i c : Nat) (w : Bool) (s : State) : view (Machine.extendCut i c w s) = view s := by
  simp [Machine.extendCut, h.setCuts]

theorem placeCut (fire : Fire) (hf : ∀ c k x s, view (fire c k x s) = view s) (c : Cut) (x : Nat) (s : State) : view (Machine.placeCut fire c x s) = view s := by
  unfold Machine.placeCut; (repeat' split) <;> simp [h.setCuts, h.refuseCut, hf]

theorem moveCut (fire : Fire) (hf : ∀ c k x s, view (fire c k x s) = view s) (c : Cut) (rest : List Cut) (s : State) : view (Machine.moveCut fire c rest s) = view s := by
  unfold Machine.moveCut; split <;> simp [h.setCuts, hf]

theorem cutOut (fire : Fire) (hf : ∀ c k x s, view (fire c k x s) = view s) (e : MapEntry) (d : Bool) (s : State) : view ((Machine.cutOut fire e d s).1) = view s := by
  unfold Machine.cutOut; dsimp only; (repeat' split) <;> simp [h.setCuts, h.refuseCut, h.mapOpen, h.extendCut, h.placeCut _ hf]

theorem planIfDue (fire : Fire) (hf : ∀ c k x s, view (fire c k x s) = view s) (s : State) : view (Machine.planIfDue fire s) = view s := by
  unfold Machine.planIfDue; dsimp only; (repeat' split) <;> simp [h.placeCut _ hf, h.cutOut _ hf]

theorem checkPlan (fire : Fire) (hf : ∀ c k x s, view (fire c k x s) = view s) (s : State) : view (Machine.checkPlan fire s) = view s := by
  unfold Machine.checkPlan; dsimp only; (repeat' split) <;> simp [h.moveCut _ hf, h.cutOut _ hf]

theorem retype (fire : Fire) (hf : ∀ c k x s, view (fire c k x s) = view s) (s : State) : view (Machine.retype fire s) = view s := by
  unfold Machine.retype; dsimp only; (repeat' split) <;> simp [h.setCuts, h.mapOpen, h.planIfDue _ hf]

theorem joinLimit (fire : Fire) (hf : ∀ c k x s, view (fire c k x s) = view s) (e : MapEntry) (s : State) : view ((Machine.joinLimit fire e s).1) = view s := by
  unfold Machine.joinLimit; dsimp only; (repeat' split) <;> simp [h.setCuts, h.placeCut _ hf, h.cutOut _ hf]

theorem changeCut (fire : Fire) (hf : ∀ c k x s, view (fire c k x s) = view s) (e : MapEntry) (s : State) : view (Machine.changeCut fire e s) = view s := by
  unfold Machine.changeCut; dsimp only; (repeat' split) <;> simp [h.setCuts, h.refuseCut, h.placeCut _ hf]

theorem entryInserted (fire : Fire) (hf : ∀ c k x s, view (fire c k x s) = view s) (e : MapEntry) (s : State) : view (Machine.entryInserted fire e s) = view s := by
  unfold Machine.entryInserted; dsimp only; (repeat' split) <;> simp [h.cutOut _ hf, h.checkPlan _ hf, h.joinLimit _ hf, h.changeCut _ hf]

theorem entryUpgraded (fire : Fire) (hf : ∀ c k x s, view (fire c k x s) = view s) (e : MapEntry) (s : State) : view (Machine.entryUpgraded fire e s) = view s := by
  unfold Machine.entryUpgraded; (repeat' split) <;> simp [h.cutOut _ hf, h.checkPlan _ hf]

theorem releaseCut (fire : Fire) (hf : ∀ c k x s, view (fire c k x s) = view s) (n : Nat) (s : State) : view (Machine.releaseCut fire n s) = view s := by
  unfold Machine.releaseCut; (repeat' split) <;> simp [h.moveCut _ hf]

theorem entryClosed (fire : Fire) (hf : ∀ c k x s, view (fire c k x s) = view s) (s : State) (e : MapEntry) : view (Machine.entryClosed fire s e) = view s := by
  unfold Machine.entryClosed; split <;> simp [h.checkPlan _ hf, h.releaseCut _ hf]

theorem fireCut (n : Nat) (c : Cut) (k x : Nat) (s : State) :
    view (Machine.fireCut n c k x s) = view s := by
  induction n generalizing c k x s with
  | zero => rfl
  | succ n ih =>
    unfold Machine.fireCut
    split
    · rfl
    · split
      · exact h.retype _ ih s
      · dsimp only
        rw [foldl_keeps view _ (fun s e => h.entryClosed _ ih s e)]
        split <;> simp [h.raiseSoft, h.planIfDue _ ih, h.openRecord, h.switchStaged, h.closeRecord, h.testMarkAt, h.former]

theorem fire (c : Cut) (k x : Nat) (s : State) : view (Machine.fire c k x s) = view s := by
  exact h.fireCut _ c k x s

theorem fireDue (n : Nat) (s : State) : view (Machine.fireDue n s) = view s := by
  induction n generalizing s with
  | zero => rfl
  | succ n ih =>
    unfold Machine.fireDue
    split
    · rfl
    · rw [ih, h.fire, h.setCuts]

theorem firmCuts (s : State) : view (Machine.firmCuts s) = view s := by
  simp [Machine.firmCuts, h.setCuts]

theorem formerPulse (s : State) : view (Machine.formerPulse s) = view s := by
  unfold Machine.formerPulse; split <;> simp [h.planIfDue _ h.fire, h.fireDue, h.firmCuts]

theorem offerEntry (e : MapEntry) (s : State) : view ((Machine.offerEntry e s).1) = view s := by
  unfold Machine.offerEntry; dsimp only; split <;> simp [h.offerRaw, h.entryInserted _ h.fire]

theorem offerPoint (k : EntryKind) (s : State) : view (Machine.offerPoint k s) = view s := by
  unfold Machine.offerPoint; dsimp only; split <;> simp [h.offerLocal, h.entryInserted _ h.fire]

theorem tell (s : State) (t : Handover) : view (Machine.tell s t) = view s := by
  unfold Machine.tell; split <;> simp [h.entryInserted _ h.fire, h.entryUpgraded _ h.fire, h.entryClosed _ h.fire]

theorem tellAll (l : List Handover) (s : State) : view (Machine.tellAll l s) = view s := 
  foldl_keeps view _ (fun _ _ => by simp [h.tell]) _ s

theorem tellClosed (r : State × List MapEntry) : view (Machine.tellClosed r) = view r.1 := by
  simp [Machine.tellClosed, h.tellAll]

theorem closeAtEnd (s : State) : view (Machine.closeAtEnd s) = view s := by
  unfold Machine.closeAtEnd; split <;> simp [h.setCuts, h.closeRecord]

theorem stopTwist (s : State) : view (Machine.stopTwist s) = view s := by
  unfold Machine.stopTwist; split <;> simp [h.twist, h.endTwistRun, h.tellClosed]

theorem stopKnot (s : State) : view (Machine.stopKnot s) = view s := by
  unfold Machine.stopKnot; split <;> simp [h.knot, h.closeKnotEntries, h.tellClosed]

theorem enterStopped (s : State) : view (Machine.enterStopped s) = view s := by
  unfold Machine.enterStopped; dsimp only; (repeat' split) <;> simp [h.station, h.pace, h.refreshPace, h.clearDwell, h.mergeLocal, h.offerPoint, h.stopTwist, h.stopKnot]

theorem actLevel (l : Level) (s : State) : view (Machine.actLevel l s) = view s := by
  unfold Machine.actLevel; (repeat' split) <;> simp [h.stopFromReady, h.actSoft, h.enterStopped]

theorem raiseLocal (c : LocalCause) (s : State) : view (Machine.raiseLocal c s) = view s := by
  unfold Machine.raiseLocal; split <;> simp [h.station, h.announce, h.actLevel]

theorem takeGo (o : Nat) (s : State) : view (Machine.takeGo o s) = view s := by
  simp [Machine.takeGo, h.station, h.refreshPace, h.enqueue, h.loadDwell, h.openWindow, h.openRow]

theorem resumeOwn (l : List LocalCause) (s : State) : view (Machine.resumeOwn l s) = view s := by
  unfold Machine.resumeOwn; split <;> simp [h.enqueue]

theorem clearCauses (f : Bool) (s : State) : view (Machine.clearCauses f s) = view s := by
  unfold Machine.clearCauses; split <;> simp [h.station, h.settleRemoval, h.resumeOwn]

theorem takeHalt (e : ListenEntry) (p : PeerHalt) (s : State) : view (Machine.takeHalt e p s) = view s := by
  unfold Machine.takeHalt; dsimp only; (repeat' split) <;> simp [h.station, h.enqueue, h.raiseSoft, h.actLevel]

theorem takeResume (x : Nat) (s : State) : view (Machine.takeResume x s) = view s := by
  unfold Machine.takeResume; split <;> simp [h.station, h.enqueue, h.settleRemoval]

theorem writeDwell (s : State) : view (Machine.writeDwell s) = view s := by
  unfold Machine.writeDwell; (repeat' split) <;> simp [h.mergeLocal, h.offerPoint]

theorem writeJoin (s : State) : view (Machine.writeJoin s) = view s := by
  unfold Machine.writeJoin; (repeat' split) <;> simp [h.mergeLocal, h.offerPoint]

theorem runAtMap (k : EntryKind) (a b c d : Nat) (m n : Bool) (s : State) : view ((Machine.runAtMap k a b c d m n s).1) = view s := by
  unfold Machine.runAtMap; dsimp only; (repeat' split) <;> simp [h.offerRaw, h.extendEntry]

theorem twistRunStep (c : WindowClass) (s : State) : view ((Machine.twistRunStep c s).1) = view s := by
  unfold Machine.twistRunStep; dsimp only; (repeat' split) <;> simp [h.twist, h.raiseSoft, h.endTwistRun, h.runAtMap]

theorem closeWindow (r : Bool) (s : State) : view (Machine.closeWindow r s) = view s := by
  unfold Machine.closeWindow; dsimp only; (repeat' split) <;> simp [h.twist, h.retarget, h.openWindow, h.switchStaged, h.tellAll, h.twistRunStep]

theorem twistPulse (n : Nat) (r : Bool) (s : State) : view (Machine.twistPulse n r s) = view s := by
  unfold Machine.twistPulse; dsimp only; (repeat' split) <;> simp [h.twist, h.closeWindow]

theorem closeAsHandover (k : EntryKind) (s : State) : view ((Machine.closeAsHandover k s).1) = view s := by
  simp [Machine.closeAsHandover, h.closeEntry]

theorem knotRunStep (p : KnotPage) (r : RowResult) (s : State) : view ((Machine.knotRunStep p r s).1) = view s := by
  unfold Machine.knotRunStep; dsimp only; (repeat' split) <;> simp [h.knot, h.raiseSoft, h.runAtMap, h.closeAsHandover]

theorem meshRunStep (p : KnotPage) (r : RowResult) (s : State) : view ((Machine.meshRunStep p r s).1) = view s := by
  unfold Machine.meshRunStep; split <;> simp [h.knot, h.runAtMap, h.closeAsHandover]

theorem closeRow (s : State) : view (Machine.closeRow s) = view s := by
  unfold Machine.closeRow; dsimp only; split <;> simp [h.knot, h.switchStaged, h.tellAll, h.knotRunStep, h.meshRunStep]

theorem rowStroke (s : State) : view (Machine.rowStroke s) = view s := by
  unfold Machine.rowStroke; split <;> simp [h.closeRow]

theorem sectionEdge (i : Fin 8) (s : State) : view (Machine.sectionEdge i s) = view s := by
  unfold Machine.sectionEdge; split <;> simp [h.knot]

theorem spindlePulse (s : State) : view (Machine.spindlePulse s) = view s := by
  unfold Machine.spindlePulse; split <;> simp [h.twist]

theorem offerArrival (s : State) (a : Arrival) : view (Machine.offerArrival s a) = view s := by
  unfold Machine.offerArrival; split <;> simp [h.countDropped, h.offerEntry]

theorem arrivalsPulse (n : Nat) (s : State) : view (Machine.arrivalsPulse n s) = view s := by
  unfold Machine.arrivalsPulse
  dsimp only
  rw [foldl_keeps view _ (fun s a => h.offerArrival s a)]
  exact h.pace _ _ (by rfl)

theorem joinArrivals (a : Arrival) (s : State) : view (Machine.joinArrivals a s) = view s := by
  have count (t : State) : view (countArrivalDropped t) = view t := h.pace _ _ (by rfl)
  unfold Machine.joinArrivals
  (repeat' split) <;> simp [count, h.pace, h.raiseSoft]

theorem dwellPulse (s : State) : view (Machine.dwellPulse s) = view s := by
  unfold Machine.dwellPulse; split <;> simp [h.clearDwell, h.loadDwell]

theorem beginDwell (s : State) : view (Machine.beginDwell s) = view s := by
  unfold Machine.beginDwell; split <;> simp [h.dwell, h.writeDwell]

end Calm

end Sys2Proof.Machine
end

