-- ==== Sys2Proof/Laws/Lists.lean ====
section
/-!
SUPPORT. What the list operations of the run map, the cut list, the pending arrivals and the transmit
queue do, said once for each.
-/

namespace Sys2Proof.Machine

/-! ## Insertion by position (R68, R94) and by remaining (R140) -/

theorem insertEntry_perm (e : MapEntry) (l : List MapEntry) : (insertEntry e l).Perm (e :: l) := by
  induction l with
  | nil => exact .refl _
  | cons x xs ih =>
    simp only [insertEntry]
    split
    · exact (ih.cons x).trans (.swap e x xs)
    · exact .refl _

@[simp] theorem insertEntry_length (e : MapEntry) (l : List MapEntry) :
    (insertEntry e l).length = l.length + 1 := by
  simpa using (insertEntry_perm e l).length_eq

/-- Insertion keeps the map order. -/
theorem insertEntry_sorted (e : MapEntry) (l : List MapEntry)
    (sorted : (l.map (fun x => x.position)).Pairwise (· ≤ ·)) :
    ((insertEntry e l).map (fun x => x.position)).Pairwise (· ≤ ·) := by
  induction l with
  | nil => simp [insertEntry]
  | cons x xs ih =>
    simp only [List.map_cons, List.pairwise_cons, List.mem_map] at sorted
    obtain ⟨low, rest⟩ := sorted
    simp only [insertEntry]
    split
    · rename_i le
      simp only [List.map_cons, List.pairwise_cons, List.mem_map]
      refine ⟨?_, ih rest⟩
      rintro _ ⟨y, member, rfl⟩
      rcases List.mem_cons.mp ((insertEntry_perm e xs).mem_iff.mp member) with rfl | old
      · exact le
      · exact low _ ⟨y, old, rfl⟩
    · rename_i above
      simp only [List.map_cons, List.pairwise_cons, List.mem_cons, List.mem_map]
      refine ⟨?_, fun a member => low a member, rest⟩
      rintro a (rfl | ⟨y, member, rfl⟩)
      · omega
      · have := low _ ⟨y, member, rfl⟩; omega

theorem insertCut_perm (c : Cut) (l : List Cut) : (insertCut c l).Perm (c :: l) := by
  induction l with
  | nil => exact .refl _
  | cons x xs ih =>
    simp only [insertCut]
    split
    · exact (ih.cons x).trans (.swap c x xs)
    · exact .refl _

@[simp] theorem insertCut_length (c : Cut) (l : List Cut) : (insertCut c l).length = l.length + 1 := by
  simpa using (insertCut_perm c l).length_eq

/-- Insertion keeps the order of R94 where no pending cut shares the new cut's place in the order of
placement. -/
theorem insertCut_ordered (c : Cut) (l : List Cut)
    (sorted : l.Pairwise fun x y => x.position < y.position ∨ (x.position = y.position ∧ x.placed < y.placed))
    (fresh : ∀ x ∈ l, x.placed ≠ c.placed) :
    (insertCut c l).Pairwise fun x y =>
      x.position < y.position ∨ (x.position = y.position ∧ x.placed < y.placed) := by
  induction l with
  | nil => simp [insertCut]
  | cons x xs ih =>
    obtain ⟨low, rest⟩ := List.pairwise_cons.mp sorted
    have apart := fresh x (by simp)
    simp only [insertCut]
    split
    · rename_i standing
      simp only [Cut.before, Bool.or_eq_true, Bool.and_eq_true, decide_eq_true_eq, beq_iff_eq] at standing
      refine List.pairwise_cons.mpr ⟨fun y member => ?_, ih rest fun y m => fresh y (by simp [m])⟩
      rcases List.mem_cons.mp ((insertCut_perm c xs).mem_iff.mp member) with rfl | old
      · omega
      · exact low y old
    · rename_i standing
      simp only [Cut.before, Bool.or_eq_true, Bool.and_eq_true, decide_eq_true_eq, beq_iff_eq] at standing
      refine List.pairwise_cons.mpr ⟨fun y member => ?_, sorted⟩
      rcases List.mem_cons.mp member with rfl | old
      · omega
      · have := low y old; omega

/-- A cut placed now comes after every pending cut in the order of placement (R94). -/
theorem nextPlacement_above (l : List Cut) : ∀ x ∈ l, x.placed < nextPlacement l := by
  have grows : ∀ (l : List Cut) (n : Nat), n ≤ l.foldl (fun n c => max n (c.placed + 1)) n
      ∧ ∀ x ∈ l, x.placed < l.foldl (fun n c => max n (c.placed + 1)) n := by
    intro l
    induction l with
    | nil => simp
    | cons y ys ih =>
      intro n
      have := (ih (max n (y.placed + 1))).1
      refine ⟨by simp only [List.foldl_cons]; omega, fun x member => ?_⟩
      rcases List.mem_cons.mp member with rfl | old
      · simp only [List.foldl_cons]; omega
      · exact (ih _).2 x old
  exact (grows l 0).2

/-- A revised cut stands anew among the others (R94). -/
theorem reviseCut_at (f : Cut → Cut) (pre : List Cut) (c : Cut) (post : List Cut) :
    reviseCut f pre.length (pre ++ c :: post) = insertCut (f c) (pre ++ post) := by
  simp [reviseCut, List.eraseIdx_append_of_length_le]

@[simp] theorem reviseCut_length (f : Cut → Cut) (n : Nat) (l : List Cut) :
    (reviseCut f n l).length = l.length := by
  unfold reviseCut
  split
  · rename_i found
    have := (List.getElem?_eq_some_iff.mp found).1
    simp [List.length_eraseIdx, this]; omega
  · rfl

theorem insertArrival_perm (a : Arrival) (l : List Arrival) : (insertArrival a l).Perm (a :: l) := by
  induction l with
  | nil => exact .refl _
  | cons x xs ih =>
    simp only [insertArrival]
    split
    · exact (ih.cons x).trans (.swap a x xs)
    · exact .refl _

@[simp] theorem insertArrival_length (a : Arrival) (l : List Arrival) :
    (insertArrival a l).length = l.length + 1 := by
  simpa using (insertArrival_perm a l).length_eq

theorem sortArrivals_perm (l : List Arrival) : (sortArrivals l).Perm l := by
  induction l with
  | nil => exact .refl _
  | cons x xs ih => exact (insertArrival_perm x _).trans (ih.cons x)

/-! ## Taking one element out -/

/-- `takeFirst` splits the list at the first element that satisfies the test. -/
theorem takeFirst_some {α : Type} {p : α → Bool} {l rest : List α} {y : α}
    (taken : takeFirst p l = some (y, rest)) :
    ∃ pre post, l = pre ++ y :: post ∧ rest = pre ++ post ∧ p y = true ∧ ∀ x ∈ pre, p x = false := by
  induction l generalizing rest with
  | nil => simp [takeFirst] at taken
  | cons x xs ih =>
    simp only [takeFirst] at taken
    split at taken
    · rename_i holds
      cases taken
      exact ⟨[], _, rfl, rfl, holds, by simp⟩
    · rename_i fails
      split at taken
      · rename_i ys found
        cases taken
        obtain ⟨pre, post, rfl, rfl, holds, before⟩ := ih found
        refine ⟨x :: pre, post, rfl, rfl, holds, ?_⟩
        rintro z (_ | ⟨_, member⟩)
        · simpa using fails
        · exact before z member
      · cases taken

/-- `takeFirst` finds nothing exactly when no element satisfies the test. -/
theorem takeFirst_none {α : Type} {p : α → Bool} {l : List α} :
    takeFirst p l = none ↔ ∀ x ∈ l, p x = false := by
  induction l with
  | nil => simp [takeFirst]
  | cons x xs ih =>
    simp only [takeFirst]
    split
    · rename_i holds; simp [holds]
    · rename_i fails
      split
      · rename_i found
        simp only [reduceCtorEq, List.mem_cons, forall_eq_or_imp, false_iff, not_and]
        intro _ all
        rw [ih.mpr all] at found
        cases found
      · rename_i found
        simpa [fails] using ih.mp found

/-- `takeLast` splits the list at the last element that satisfies the test. -/
theorem takeLast_some {α : Type} {p : α → Bool} {l rest : List α} {y : α}
    (taken : takeLast p l = some (y, rest)) :
    ∃ pre post, l = pre ++ y :: post ∧ rest = pre ++ post ∧ p y = true ∧ ∀ x ∈ post, p x = false := by
  induction l generalizing rest with
  | nil => simp [takeLast] at taken
  | cons x xs ih =>
    simp only [takeLast] at taken
    split at taken
    · rename_i found
      cases taken
      obtain ⟨pre, post, rfl, rfl, holds, later⟩ := ih found
      exact ⟨x :: pre, post, rfl, rfl, holds, later⟩
    · rename_i absent
      split at taken
      · rename_i holds
        cases taken
        refine ⟨[], _, rfl, rfl, holds, ?_⟩
        exact takeLast_none absent
      · cases taken
where
  takeLast_none {xs : List α} (absent : takeLast p xs = none) : ∀ x ∈ xs, p x = false := by
    induction xs with
    | nil => simp
    | cons z zs ih =>
      simp only [takeLast] at absent
      split at absent
      · cases absent
      · rename_i none
        split at absent
        · cases absent
        · rename_i fails
          rintro w (_ | ⟨_, member⟩)
          · simpa using fails
          · exact ih none w member

/-! ## Offers and queuing -/

/-- The map after an offer: as it was, or the new entry inserted, or inserted with the first evictable entry
out (R75 to R77). -/
theorem weighOffer_length (e : MapEntry) (entries : List MapEntry)
    (fits : entries.length ≤ Config.mapCapacity) :
    match weighOffer e entries with
    | .inserted l | .evicting l => l.length ≤ Config.mapCapacity
    | .refused | .refusedFull => True := by
  unfold weighOffer
  split
  · rename_i eq
    split at eq
    · cases eq; simp; omega
    · split at eq
      · cases eq
      · split at eq <;> cases eq
  · rename_i eq
    split at eq
    · cases eq
    · split at eq
      · cases eq
      · split at eq
        · rename_i found
          cases eq
          obtain ⟨pre, post, rfl, rfl, -, -⟩ := takeFirst_some found
          simp at fits ⊢
          omega
        · cases eq
  · trivial
  · trivial

/-- Queuing keeps the transmit queue within its capacity (R184, R185). -/
theorem enqueue_queue_length (b : TxBody) (s : State) (fits : s.ply.queue.length ≤ Config.queueCapacity) :
    (enqueue b s).ply.queue.length ≤ Config.queueCapacity := by
  have room : s.ply.room ≤ Config.queueCapacity := by
    unfold Ply.room
    split <;> omega
  unfold enqueue
  split
  · simp [State.setPly]; omega
  · split
    · split
      · rename_i found
        obtain ⟨pre, post, split, rfl, -, -⟩ := takeLast_some found
        rw [split] at fits
        simp [State.setPly] at fits ⊢
        omega
      · simpa [State.setPly] using fits
    · simpa [State.setPly] using fits

end Sys2Proof.Machine
end

