-- ==== Sys2Proof/Tests/Slice0.lean ====
section
/-!
SUPPORT. The model's own tests, each about one operation or one command on a small state, with expected
values from the manual's worked examples and tables; the checks of WellFormed on ill-formed terms; and, for
every obligation with hypotheses, concrete states and operands that meet them.
-/

namespace Sys2Proof.Tests

open Sys2Proof Sys2Proof.Machine Sys2Proof.Safety

/-! ## Small states -/

/-- Configuration values inside their ranges (R201). -/
def settings (kind : MachineKind) (forming : Bool) : Settings :=
  { kind, forming, stepA := 250, stepB := 0, ppr := 2, smax := 1500, ownLimit := 500, rampUp := 20,
    rampDown := 30, stopRamp := 100, pacePeriod := 2, staleTime := 10, dwellTime := 1, slipSpan := 1000,
    slipTol := 20, slipPersist := 2, cutterOffset := 6000, retention := 5000, burst := 2, startBank := 0 }

/-- A bank with all three pages. -/
def fullBank (state : BankState) : Bank :=
  { state, twist := some { target10 := 380, tolM := 20, tolX := 60, persistence := 2, gain := 4, lw := 1000 }
    knot := some { sections := 4, expected := 24, threshold := 2, mode := .any, duration := 2,
                   majorRow := 5, runLimit := 10, meshTol := 50, meshRef := .first }
    package := some { target := 40000, minimum := 800, maximum := 1200, margin := 1500,
                      planDistance := 5000, maxJoins := 2, minorAllowance := 2, cutOutMajor := true,
                      haltAtClose := false, markInterval := 1, productCode := 77 } }

/-- A peer of the listen table. -/
def peer (number : Nat) (role : ListenRole) : ListenEntry :=
  { ListenEntry.reset with status := .peer, number, role, path := 5000, takeUp := 1080 }

/-- Station 9 in a station state, bank 0 ACTIVE while a run exists, FEED peer 3 and TAKE peer 20. -/
def station (kind : MachineKind) (forming : Bool) (state : StationState) : State :=
  { State.reset with
    start := { StartBlock.reset with phase := .over, number := 9, settings := some (settings kind forming) }
    station := { Station.reset with state, den := state.driven }
    banks := #v[fullBank (if state.inRun then .active else .loaded), fullBank .loaded, .reset, .reset]
    pace := { Pace.reset with listen := #v[peer 3 .feed, peer 20 .take, .reset, .reset, .reset, .reset] }
    ply := { Ply.reset with isOn := true, seenIdle := true, idle := 128 } }

/-- The station with one local cause held. -/
def holding (c : LocalCause) (s : State) : State :=
  { s with station := { s.station with locals := [c], alm := true, firstCause := some ⟨.loc c, 9⟩ } }

/-- The station with a peer halt record held. -/
def halted (origin : Nat) (l : Level) (s : State) : State :=
  { s with station := { s.station with
      peers := [⟨origin, l⟩], alm := true, firstCause := some ⟨.peerHalt l, origin⟩ } }

/-- The station in START, at a phase. -/
def starting (phase : StartPhase) (attempts : Nat) : State :=
  { State.reset with start := { StartBlock.reset with phase, attempts, number := 9 } }

/-- A frame from a station to this one. -/
def frameFrom (sender : Byte) (payload : List Byte) : RxFrame := { top := 0, sender, dest := 9, payload }

/-- The head of an ASK from station 60 to this one. -/
def head : AskHead := { top := 0, sender := 60, dest := 9, tag := 7 }

/-- The state a command leads to. -/
def after (c : Instr) (s : State) : State :=
  match exec c s with
  | .next t => t
  | .fault _ | .refused _ => s

/-- A station with its queue replaced. -/
def queued (q : List QFrame) (s : State) : State := { s with ply := { s.ply with queue := q } }

/-- A map entry of this station. -/
def entry (kind : EntryKind) (position : Nat) : MapEntry := closedPoint kind position

/-- The station with one map entry. -/
def logged (e : MapEntry) (s : State) : State := { s with map := { s.map with entries := [e] } }

/-! ## The checks of WellFormed, each on an ill-formed term it refuses -/

theorem test_wf_accepts_a_frame : WellFormed.command (.haltFrame (frameFrom 3 [3, 1])) = true := by decide
theorem test_wf_refuses_long_payload :
    WellFormed.command (.answerFrame (frameFrom 3 (List.replicate 25 0))) = false := by decide
theorem test_wf_refuses_wrong_size : WellFormed.command (.haltFrame (frameFrom 3 [3])) = false := by decide
theorem test_wf_refuses_sender : WellFormed.command (.goFrame (frameFrom 63 [3])) = false := by decide
theorem test_wf_refuses_destination :
    WellFormed.command (.goFrame { top := 0, sender := 3, dest := 63, payload := [3] }) = false := by decide
theorem test_wf_refuses_ask_head :
    WellFormed.command (.askGo ⟨{ head with sender := 0 }, []⟩) = false := by decide
theorem test_wf_refuses_long_ask :
    WellFormed.command (.askGo ⟨head, List.replicate 23 0⟩) = false := by decide
theorem test_wf_refuses_force_as_clear : WellFormed.command (.askClear ⟨head, [1]⟩) = false := by decide
theorem test_wf_refuses_known_request_as_unknown :
    WellFormed.command (.askUnknown 14 ⟨head, []⟩) = false := by decide
set_option maxRecDepth 4000 in
theorem test_wf_refuses_sound_bytes :
    WellFormed.command (.receiveError ((frameBytes 8 3 3 0 [3]).map LineByte.send)) = false := by decide

/-! ## Bytes and arithmetic, from the manual's examples -/

set_option maxRecDepth 4000 in
/-- R176's check is the one whose value over the digits 1 to 9 is 29B1 hexadecimal. -/
theorem test_check_of_digits :
    checkOf [0x31, 0x32, 0x33, 0x34, 0x35, 0x36, 0x37, 0x38, 0x39] = 0x29B1
      ∧ cyclicCheck [0x31, 0x32, 0x33, 0x34, 0x35, 0x36, 0x37, 0x38, 0x39] = 0x29B1 := by decide
/-- R176: HALT is kind 2 with bit 7 set, destination 0. -/
theorem test_halt_frame_header :
    ((TxBody.halt 9 .soft).bytes 9).take 6 = [0x82, 9, 0, 2, 9, 2] := by decide
/-- R33: E = −26 with gain 4 raises trim by 6. -/
theorem test_trim_truncates_toward_zero : nextTrim 0 (-26) 4 = 6 := by decide
/-- Chapter 2, worked cases at the limits: spindle stopped, and the offers. -/
theorem test_trim_clamped : nextTrim (-6) (-999) 4 = 200 := by decide
theorem test_offer_at_trim_low : offerOf 6000 1500 113 (-200) = 1659 := by decide
theorem test_offer_at_trim_high : offerOf 6000 1500 380 200 = 328 := by decide
theorem test_offer_at_smallest_target : offerOf 3000 1500 5 (-200) = 3000 := by decide
theorem test_runaway_count : measureT10 1 2000000 200000 = 65535 := by decide
/-- R56's worked case: references 80 and 82, advance 86. -/
theorem test_mesh_deviation : meshDeviation 86 80 = 75 ∧ meshDeviation 86 82 = 48 := by decide
/-- R14: mark 12034 as five digits, first digit first. -/
theorem test_mark_bits : (markBits 12034).take 8 = [false, false, false, true, false, false, true, false] := by
  decide
/-- R94, R68: insertion after equals. -/
theorem test_insert_after_equals :
    (insertEntry (entry .join 5) [entry .slip 5, entry .stop 6]).map (fun e => e.kind)
      = [.slip, .join, .stop] := by decide
/-- R99's choice: no blocker leaves the plan at start + target. -/
theorem test_plan_without_blocker :
    resolvePlan { PackagePage.absent with target := 40000 } 1000 6000 20000 [] = .at_ 41000 := by decide
/-- R127: at most four FEED peers. -/
theorem test_fifth_feed_is_barred :
    (peer 9 .feed).barredBy 1 [peer 2 .feed, peer 3 .feed, peer 4 .feed, peer 5 .feed] = true := by decide
/-- R195: a twist page's bytes. -/
theorem test_twist_page_bytes : TwistPage.bytes ⟨380, 20, 60, 2, 4, 1000⟩
    = [0x01, 0x7C, 0x00, 0x14, 0x00, 0x3C, 2, 4, 0x03, 0xE8] := by decide
/-- R182, R181: URGENT before NORMAL, delays 2 + n and 66 + n. -/
theorem test_access_delays : accessDelay 9 (.queued true) = 11 ∧ accessDelay 9 .pace = 75 := by decide
/-- R165: rank decides the in-service cause; among peer records of a rank the first taken. -/
theorem test_in_service_cause :
    ({ Station.reset with locals := [.twistLimit], peers := [⟨3, .hard⟩, ⟨4, .hard⟩] } : Station).inService 12
      = some ⟨.peerHalt .hard, 3⟩ := by decide

/-- R175: 1 goes out as a low start bit, 1 and seven zeros, and a high stop bit; a low stop bit changes no data. -/
theorem test_line_byte : LineByte.send 1 = 0b1000000010 ∧ LineByte.data 0b0000000010 = 1
    ∧ LineByte.data (LineByte.send 0xA5) = 0xA5 := by decide

/-! ## One command on a small state -/

/-- R1: wheel step 250 µm, the fourth pulse of a run brings 1 mm. -/
theorem test_fourth_pulse :
    (after .activeSourcePulse { station .plain false .run with
      length := { Length.reset with acc := 750 } }).pos = 1 := by decide
/-- R153, R169: STP in RUN stops at once, drops DEN and queues HALT(9, HARD). -/
theorem test_stp_stops :
    let t := after .stpEdge (station .plain false .run)
    t.station.state = .stopped ∧ t.station.den = false ∧ t.ply.queue.head? = some (fresh (.halt 9 .hard)) := by
  decide
/-- R155: the STOP entry of that stop. -/
theorem test_stp_writes_stop :
    (after .stpEdge (station .plain false .run)).map.entries.map (fun e => e.kind) = [.stop] := by decide
/-- R166, R156, R168: CLR then leaves READY and queues RESUME(9). -/
theorem test_clr_releases :
    let t := after .clrEdge (holding .localStop (station .plain false .stopped))
    t.station.state = .ready ∧ t.ply.queue = [fresh (.resume 9)] := by decide
/-- R164: RUN_LIMIT stays. -/
theorem test_clr_keeps_run_limit :
    (after .clrEdge (holding .runLimit (station .plain false .stopped))).station.locals = [.runLimit] := by
  decide
/-- Section 8.4's worked example: coiler 20's FEED entry follows SOFT, so HALT(12, HARD) eases it. -/
theorem test_halt_follow_soft :
    (after (.haltFrame (frameFrom 3 [12, 1])) { station .plain false .run with
      pace := { Pace.reset with listen :=
        #v[{ peer 3 .feed with follow := .soft }, .reset, .reset, .reset, .reset, .reset] } }).station.state
      = .easing := by decide
/-- R139: path 5,000 mm and travel 12 leave 4,988,000 µm. -/
theorem test_handoff_remaining :
    (after (.handoffFrame (frameFrom 3 [3, 3, 2, 1, 0, 0, 1, 0, 0, 0, 0, 12]))
      (station .plain false .run)).pace.arrivals.map (fun a => a.remaining) = [4988000] := by decide
/-- R135: one ramp step of 20 toward the own offer of an isolated station. -/
theorem test_tick_ramps :
    (after .regulationTick { station .plain false .run with
      twist := { Twist.reset with ownOffer := 500 }
      pace := { Pace.reset with listen := Vector.replicate 6 .reset } }).pace.run = 20 := by decide
/-- R39: the words of that tick are transferred. -/
theorem test_tick_transfers :
    (after .regulationTick { station .plain false .run with
      twist := { Twist.reset with ownOffer := 500 }
      pace := { Pace.reset with listen := Vector.replicate 6 .reset } }).twist.link.length = 33 := by
  decide
/-- R39, R46: the pins after a transfer of 5 and 3, whose last bit is 1. -/
theorem test_link_pins_after_transfer :
    let t := Twist.reset.transfer 5 3
    (t.dck, t.dda, t.dlt) = (false, true, false) ∧ t.link.getLast? = some .latch
      ∧ (t.link.drop 13).take 3 = [.bit true, .bit false, .bit true] := by decide
/-- R49: an edge on a section beyond n is not counted. -/
theorem test_section_beyond_n :
    let s := { station .netting false .run with knot := { Knot.reset with rowOpen := true } }
    (after (.sectionEdge 4) s).knot.counters = s.knot.counters := by decide
/-- R71: a JOIN at the run position. -/
theorem test_join :
    ((after .jniEdge { station .plain false .stopped with
      length := { Length.reset with acc := 84100000 } }).map.entries.map (fun e => (e.kind, e.position)))
      = [(.join, 84100)] := by decide
/-- R72: 200 mm behind merges. -/
theorem test_join_merges :
    ((after .jniEdge (logged (entry .join 84100) { station .plain false .run with
      length := { Length.reset with acc := 84300000 } })).map.entries.map (fun e => (e.position, e.count)))
      = [(84100, 2)] := by decide
/-- R191, R192: STATUS answers 7, 1, DONE, RUN's code and page 0. -/
theorem test_status_answer :
    ((after (.askStatus ⟨head, []⟩) (station .plain false .run)).ply.queue.head?.map
      (fun f => f.body.payload.take 5)) = some [7, 1, 0, 4, 4] := by decide
/-- R190: an unknown request is MALFORMED. -/
theorem test_unknown_request :
    ((after (.askUnknown 15 ⟨head, []⟩) (station .plain false .run)).ply.queue.head?.map
      (fun f => f.body.payload)) = some [7, 15, 2, 5] := by decide
/-- R118: a twist page with tolX below tolM is stored with tolX = tolM and answered CLAMPED(1). -/
theorem test_bank_write_clamps :
    let t := after (.askBankWrite ⟨head, [1, 0] ++ TwistPage.bytes ⟨380, 60, 20, 2, 4, 1000⟩⟩)
      (station .plain false .idle)
    (t.bank 1).twist.map (fun p => p.tolX) = some 60
      ∧ t.ply.queue.head?.map (fun f => f.body.payload) = some [7, 7, 1, 1] := by decide
/-- R157: END leaves IDLE with the bank LOADED. -/
theorem test_end :
    let t := after (.askEnd ⟨head, []⟩) (station .plain false .ready)
    t.station.state = .idle ∧ (t.bank 0).state = .loaded := by decide
/-- R158: RESTART pends until its answer has gone. -/
theorem test_restart_pends :
    (after (.warmRestart 9) (after (.askRestart ⟨head, []⟩) (station .plain false .idle))).station.state
      = .idle := by decide
/-- R199: SDA in an attempt whose bus address A8 is not acknowledged, after two clocks that released SDA. -/
theorem test_no_ack_bus :
    (after (.blockReadAttempt (.noAckAddress 2)) (starting .attempting 0)).start.bus
      = [.releaseClock, .releaseClock, .startCond, .stationBit true, .stationBit false, .stationBit true,
         .stationBit false, .stationBit true, .stationBit false, .stationBit false, .stationBit false,
         .memoryBit true, .stopCond] := by decide
/-- R181: station 9's NORMAL frame waits for 75 idle slots and starts at 75; its URGENT one starts at 11. -/
theorem test_access_delay_holds :
    let s := queued [fresh (.answer 60 [7, 1, 0, 4] false)] (station .plain false .run)
    let u := queued [fresh (.go 9)] (station .plain false .run)
    (after .accessStart { s with ply := { s.ply with idle := 74 } }).ply.access = none
      ∧ (after .accessStart { s with ply := { s.ply with idle := 75 } }).ply.access = some 1
      ∧ (after .accessStart { u with ply := { u.ply with idle := 10 } }).ply.access = none
      ∧ (after .accessStart { u with ply := { u.ply with idle := 11 } }).ply.access = some 1 := by decide
/-- R175: a frame before the line has been seen idle is not received. -/
theorem test_frame_before_idle :
    let s := { station .plain false .ready with ply := { Ply.reset with isOn := true } }
    (after (.goFrame (frameFrom 3 [1])) s).station.state = .ready
      ∧ (after (.goFrame (frameFrom 3 [1])) (after .normalHoldTimeout s)).station.state = .run := by decide
/-- R82: with retention 5,000 mm an entry ending at 1 stands at position 5,001 and leaves at 5,002. -/
theorem test_retention_edge :
    let s (acc : Nat) : State := logged (entry .stop 1) { station .plain false .run with
      length := { Length.reset with acc } }
    (after .activeSourcePulse (s 5001000)).map.entries.length = 1
      ∧ (after .activeSourcePulse (s 5001750)).map.entries.length = 0 := by decide
/-- R13: an interval of 1 m marks at 1,000 mm; the next point is 2,000 and the next number 00002. -/
theorem test_mark_falls_due :
    let t := after .activeSourcePulse { station .plain false .run with
      length := { Length.reset with acc := 999750 }
      marks := { Marks.reset with interval := 1, counter := 1, next := some 1000 } }
    t.marks.next = some 2000 ∧ t.marks.counter = 2 ∧ t.marks.printer = some (markBits 1) := by decide
/-- R14, R20: mark 00001 leaves MKC low and MKD at its last bit, 1, and a cold reset leaves both low. -/
theorem test_mark_pins : let t := Marks.fallDue { Marks.reset with interval := 1, counter := 1 } 1000
    (t.mkc, t.mkd) = (false, true)
      ∧ (after .coldReset { station .plain false .run with marks := t }).marks.mkd = false := by decide
/-- R183: a collision is counted and the HALT keeps its place. -/
theorem test_collision_keeps_place :
    let t := after .collision (after .accessStart (queued [fresh (.halt 9 .hard)] (station .plain false .run)))
    t.ply.queue = [{ fresh (.halt 9 .hard) with collisions := 1 }] ∧ t.ply.lte = false := by decide

/-! ## Witnesses of the obligations' hypotheses -/

theorem witness_StepRunsTheFrontCommand :
    { station .plain false .run with pending := [.stpEdge, .clrEdge] }.pending
      = Instr.stpEdge :: [.clrEdge] := by decide
theorem witness_StepWithoutCommand : (station .plain false .run).pending = [] := by decide
theorem witness_StartReadsTheBlock_first_failure : (starting .attempting 0).start.phase = .attempting
    ∧ (∀ k b, ReadResult.sdaStuck ≠ .image k b) ∧ (∀ k b, ReadResult.noAckRead 9 ≠ .image k b)
    ∧ (starting .attempting 1).start.attempts + 1 < 3 :=
  ⟨by decide, fun _ _ => nofun, fun _ _ => nofun, by decide⟩
theorem witness_StartReadsTheBlock_third_failure : (starting .attempting 2).start.phase = .attempting
    ∧ ¬ (starting .attempting 2).start.attempts + 1 < 3 := by decide
theorem witness_StartReadsTheBlock_outside : (starting .waiting 1).start.phase ≠ .attempting := by decide
theorem witness_BlockImageIsJudged_bad_tag : (starting .attempting 0).start.phase = .attempting
    ∧ (Vector.replicate 128 (0 : Byte)).toList.take 3 ≠ [0xC6, 0x1A, 1] := by decide
/-- The image with a good tag whose last byte is `last`. -/
def tagged (last : Byte) : List Byte := [0xC6, 0x1A, 1] ++ List.replicate 124 0 ++ [last]
set_option maxRecDepth 4000 in
theorem witness_BlockImageIsJudged_bad_sum :
    (tagged 0).length = 128 ∧ (tagged 0).take 3 = [0xC6, 0x1A, 1]
      ∧ ((tagged 0).map (fun x => x.toNat)).sum % 256 ≠ 0 := by decide
set_option maxRecDepth 4000 in
theorem witness_BlockImageIsJudged_sound :
    (tagged 0x1F).length = 128 ∧ (tagged 0x1F).take 3 = [0xC6, 0x1A, 1]
      ∧ ((tagged 0x1F).map (fun x => x.toNat)).sum % 256 = 0 := by decide
set_option maxRecDepth 4000 in
theorem witness_BlockFieldsStand : 128 ≤ (tagged 0x1F).length := by decide
theorem witness_WarmRestart_waits : let s := station .plain false .idle
    (s.station.restartPending && s.station.answerGone) = false := by decide
theorem witness_WarmRestart_acts :
    let s := { station .plain true .idle with
      station := { Station.reset with state := .idle, restartPending := true, answerGone := true } }
    (s.station.restartPending && s.station.answerGone) = true := by decide
theorem witness_ActivePulse_outside : (station .plain false .idle).inRun = false := by decide
theorem witness_ActivePulseOnAQuietStation : let s := station .plain false .run
    Quiet s ∧ s.inRun = true ∧ accAfterPulse s / 1000 < 4000000000 := by decide
theorem witness_ActivePulseOnAQuietStation_saturated :
    let s := { station .plain false .ready with length := { Length.reset with acc := 4294967295999 } }
    Quiet s ∧ s.inRun = true ∧ 4000000000 ≤ s.pos := by decide
/-- A PLAIN station in RUN one pulse before 5,001 mm, with a mark due there and an entry at 1 mm, whose
retention of 5,000 mm it just keeps. -/
def measuring : State := logged (entry .stop 1) { station .plain false .run with
  length := { Length.reset with acc := 5000750 }
  marks := { Marks.reset with interval := 1, counter := 1, next := some 5001 } }
theorem witness_ActivePulse_marks_and_map : let s := measuring
    Plain s ∧ s.inRun = true ∧ accAfterPulse s / 1000 = 5001 ∧ s.pace.arrivals = []
      ∧ s.marks.next = some (accAfterPulse s / 1000) ∧ s.pos < 4294967295 := by decide
theorem witness_ActivePulse_saturated_map :
    let s := logged (entry .stop 0) { station .plain false .run with
      length := { Length.reset with acc := 4294967295999 } }
    Plain s ∧ s.inRun = true ∧ 4000000000 ≤ s.pos ∧ 4294967295 ≤ s.pos ∧ s.pace.arrivals = [] := by decide
/-- A pending arrival from feeder 3, whose take-up 1,080 makes 270 µm of a pulse of 250 µm. -/
def arrival (kind : EntryKind) (severity : Severity) (origin : Nat) (remaining : Int) : Arrival :=
  { kind, origin, severity, count := 1, extent := 2000, feeder := 3, remaining, accepted := 0 }
/-- The station with these pending arrivals. -/
def awaiting (l : List Arrival) (s : State) : State := { s with pace := { s.pace with arrivals := l } }
theorem witness_ActivePulse_arrivals : let s (n : Int) : State := awaiting [arrival .join .minor 4 n] measuring
    Plain (s 270) ∧ (s 270).inRun = true ∧ (nearer (s 271) (arrival .join .minor 4 271)).remaining = 1
      ∧ (nearer (s 270) (arrival .join .minor 4 270)).remaining = 0 ∧ 4 ≠ (s 270).own
      ∧ (s 270).map.entries.length < 64 ∧ (arrival .join .minor 9 270).origin = (s 270).own := by decide
/-- One pulse below the run limit. -/
def belowLimit (state : StationState) : State :=
  { station .plain false state with length := { Length.reset with acc := 3999999999750 } }
theorem witness_CrossingTheRunLimit : let s := belowLimit .run
    Quiet s ∧ StationLawful s ∧ s.inRun = true ∧ s.pos < 4000000000
      ∧ 4000000000 ≤ accAfterPulse s / 1000 ∧ LocalCause.runLimit ∉ s.station.locals
      ∧ s.ply.queue.length < s.ply.room := by decide
theorem witness_CrossingTheRunLimit_stopped : let s := holding .brk (belowLimit .stopped)
    Quiet s ∧ StationLawful s ∧ s.inRun = true ∧ s.pos < 4000000000
      ∧ 4000000000 ≤ accAfterPulse s / 1000 ∧ LocalCause.runLimit ∉ s.station.locals
      ∧ s.ply.queue.length < s.ply.room := by decide
theorem witness_RaiseSoft : let s := station .plain true .ready
    LocalCause.packageDoff ≠ .brk ∧ LocalCause.packageDoff ≠ .localStop ∧ StationLawful s ∧ s.inRun = true
      ∧ LocalCause.packageDoff ∉ s.station.locals ∧ s.ply.queue.length < s.ply.room
      ∧ LocalCause.packageDoff ∈ (holding .packageDoff (station .plain true .stopped)).station.locals
      ∧ StationLawful (holding .packageDoff (station .plain true .stopped)) := by decide
/-- Source A's slip is `1000 - b` permille of 1,000 (R5). -/
def spanned (source : Source) (b badSpans : Nat) : State :=
  { station .plain false .run with length := { Length.reset with source, la := 1000, lb := b, badSpans } }
/-- The span is bad. -/
def badSpan (s : State) : Bool :=
  decide ((match s.length.source with | .a => s.cfg.slipTol | .b => 2 * s.cfg.slipTol)
    < (max s.length.la s.length.lb - min s.length.la s.length.lb) * 1000 / max s.length.la s.length.lb)
theorem witness_SpanClose_good_at_the_limit : badSpan (spanned .a 980 1) = false := by decide
theorem witness_SpanClose_bad : badSpan (spanned .a 979 0) = true
    ∧ (spanned .a 979 0).length.badSpans + 1 < (spanned .a 979 0).cfg.slipPersist := by decide
theorem witness_SpanClose_switch : badSpan (spanned .a 979 1) = true
    ∧ (spanned .a 979 1).cfg.slipPersist ≤ (spanned .a 979 1).length.badSpans + 1
    ∧ (spanned .a 979 1).length.source = .a := by decide
theorem witness_SpanClose_lost : badSpan (spanned .b 959 1) = true
    ∧ (spanned .b 959 1).cfg.slipPersist ≤ (spanned .b 959 1).length.badSpans + 1
    ∧ (spanned .b 959 1).length.source = .b ∧ (spanned .b 959 1).inRun = true := by decide
theorem witness_SpanClose_full_map : let s := { spanned .a 979 1 with map := { RunMap.reset with
      entries := List.replicate 64 (entry .join 0) } }
    badSpan s = true ∧ 64 ≤ s.map.entries.length ∧ (spanned .a 979 1).map.entries.length < 64 := by decide
/-- A PLAIN station with check source B of 240 µm, LA at this many micrometres. -/
def checking (la : Nat) : State :=
  { station .plain false .run with
    start := { (station .plain false .run).start with
      settings := some { settings .plain false with stepB := 240 } }
    length := { Length.reset with la, lb := 990000 } }
theorem witness_SpanClose_pulse : let s := checking 999750
    s.cfg.kind = .plain ∧ s.cfg.forming = false ∧ s.cfg.stepB ≠ 0 ∧ s.pace.arrivals = [] ∧ s.inRun = true
      ∧ withinRunLimit s ∧ s.cfg.slipSpan * 1000 ≤ s.length.la + s.cfg.stepA
      ∧ ¬ s.cfg.slipSpan * 1000 ≤ (checking 999749).length.la + s.cfg.stepA := by decide
/-- R5: the pulse that brings LA to 1,000 mm closes the span with slip 10 and starts both accumulators. -/
theorem test_span_closes : let t := after .activeSourcePulse (checking 999750)
    t.length.lastSlip = 10 ∧ t.length.la = 0 ∧ t.length.lb = 0 ∧ t.length.badSpans = 0 := by decide
theorem witness_MeasuredTwist : 0 < 2 ∧ 0 < 1000000 ∧ measureT10 2 7600 1000000 < 65535
    ∧ measureT10 1 2000000 200000 = 65535 := by decide
theorem witness_WindowClass : (20 : Int).natAbs ≤ 20 ∧ 20 < (21 : Int).natAbs ∧ (21 : Int).natAbs ≤ 60
    ∧ 60 < (61 : Int).natAbs ∧ 0 < 1 ∧ 20 ≤ 60 ∧ 60 ≤ 400 := by decide
/-- A LAYING station at the close of a window of 1,000 mm with 760 pulses at 2 per turn: T10 is 3,800 with
eff10 3,800. -/
def windowDone : State :=
  { station .laying false .run with twist := { Twist.reset with
      windowOpen := true, pulses := 760, width := 1000000, eff10 := some 3800 } }
/-- The open TWIST entry of a run of one window from position 0. -/
def twistEntry : MapEntry := runEntry .twist 0 0 1 false
/-- That window with another count: 775 pulses give E = 19, 776 give 21, 805 give 59 and 807 give 61. -/
def windowOf (pulses offRun majorRun : Nat) : State :=
  { windowDone with twist := { windowDone.twist with pulses, offRun, majorRun } }
/-- E of the closing window (R26). -/
def closingE (s : State) : Int :=
  deviationE ((measureT10 s.cfg.ppr s.twist.pulses s.twist.width : Int) - 3800) 3800
/-- Two FEED peers of weight 50 with these last D10, the second stale or not. -/
def fed (first second : Int) (stale : Bool) : State :=
  let feeder (d : Int) (n : Nat) (stale : Bool) : ListenEntry := { peer n .feed with
    weight := 50, stale, lastReport := some {
      state := .stopped, activeBank := 0, serviceCause := 0, serviceOrigin := 0, firstCause := 0, firstOrigin := 0
      ownOffer := 0, feedOffer := 0, takeOffer := 0, runPace := 0, lastD10 := d, windowCount := 1
      productCode := 0, position := 0 } }
  { station .laying false .run with pace := { Pace.reset with
      listen := #v[feeder first 3 false, feeder second 4 stale, peer 5 .feed, .reset, .reset, .reset] } }
/-- Section 2.6's worked case: 113; 115 with the other feeder stale; 18 is raised to 108. -/
theorem test_balance : balance 120 (balancingFeeders (fed 20 10 false)) = 113
    ∧ balance 120 (balancingFeeders (fed 10 20 true)) = 115
    ∧ balance 120 (balancingFeeders (fed 400 10 false)) = 108 ∧ aimOf 120 (fed 20 10 false) = 113
    ∧ aimOf 120 (fed 10 20 true) = 115 ∧ aimOf 120 (fed 400 10 false) = 108 := by decide
theorem witness_WindowClosing : let s := windowDone
    s.cfg.kind = .laying ∧ s.cfg.forming = false ∧ s.openEntry .twist = none ∧ s.stagedBank = none
      ∧ s.twist.eff10 = some 3800 ∧ measureT10 s.cfg.ppr s.twist.pulses s.twist.width = 3800
      ∧ (closingE s).natAbs ≤ s.twistPage.tolM := by decide
theorem witness_WindowClosing_ends_an_entry : let s := logged twistEntry (windowOf 775 1 0)
    s.openEntry .twist = some twistEntry ∧ closingE s = 19 ∧ (closingE s).natAbs ≤ s.twistPage.tolM := by decide
theorem witness_WindowClosing_minor : let s := windowOf 776 1 0
    closingE s = 21 ∧ s.twistPage.tolM < (closingE s).natAbs ∧ ¬ s.twistPage.tolX < (closingE s).natAbs
      ∧ s.map.entries.length < 64 ∧ s.twistPage.persistence ≤ s.twist.offRun + 1 := by decide
theorem witness_WindowClosing_major : closingE (windowOf 805 0 0) = 59 ∧ closingE (windowOf 807 0 0) = 61
    ∧ (windowOf 807 0 0).twistPage.tolX < (closingE (windowOf 807 0 0)).natAbs
    ∧ (windowOf 807 0 0).twist.majorRun + 1 < (windowOf 807 0 0).twistPage.persistence := by decide
theorem witness_WindowClosing_limit : let s := windowOf 807 1 1
    s.twistPage.tolX < (closingE s).natAbs ∧ s.twistPage.persistence ≤ s.twist.majorRun + 1
      ∧ s.inRun = true ∧ s.station.state = .run ∧ s.station.hardHeld = false
      ∧ LocalCause.twistLimit ∉ s.station.locals := by decide
theorem witness_WindowClosing_pulse :
    let s (width : Nat) : State := { windowDone with twist := { windowDone.twist with width } }
    (s 999750).cfg.kind = .laying ∧ (s 999750).cfg.forming = false ∧ (s 999750).cfg.stepB = 0
      ∧ (s 999750).pace.arrivals = [] ∧ (s 999750).inRun = true ∧ withinRunLimit (s 999750)
      ∧ (s 999750).twist.windowOpen = true
      ∧ (s 999749).twist.width + (s 999749).activeStep < (s 999749).twistPage.lw * 1000
      ∧ ¬ (s 999750).twist.width + (s 999750).activeStep < (s 999750).twistPage.lw * 1000
      ∧ (station .laying false .ready).twist.windowOpen = false := by decide
/-- The station with bank 1 STAGED. -/
def staging (s : State) : State := { s with banks := #v[fullBank .active, fullBank .staged, .reset, .reset] }
theorem witness_WindowClosing_staged : let s := staging windowDone
    s.cfg.kind = .laying ∧ s.cfg.forming = false ∧ BankLawful s ∧ s.stagedBank = some 1 := by decide
/-- R123: the STAGED bank is ACTIVE after the window's close, the earlier one LOADED. -/
theorem test_staged_bank_at_window_close : let t := closeWindow true (staging windowDone)
    (t.bank 1).state = .active ∧ (t.bank 0).state = .loaded ∧ t.stagedBank = none := by decide
theorem witness_RowFlag : (fullBank .active).knot.map (fun p => (p.mode, decide (p.expected ≤ 250)))
    = some (.any, true) ∧ KnotPage.absent.sections = 1 := by decide
/-- A NETTING station with a row open. -/
def rowRunning : State :=
  { station .netting false .run with knot := { Knot.reset with rowOpen := true } }
theorem witness_RowStroke : let s := rowRunning
    s.cfg.kind = .netting ∧ s.station.state.driven = true ∧ s.knot.rowOpen = true
      ∧ s.length.dwelling = false ∧ s.stagedBank = none := by decide
theorem witness_RowStroke_staged : let s := staging rowRunning
    s.cfg.kind = .netting ∧ s.station.state.driven = true ∧ s.knot.rowOpen = true ∧ s.length.dwelling = false
      ∧ s.cfg.forming = false ∧ BankLawful s ∧ s.stagedBank = some 1 := by decide
theorem witness_RowStroke_logs : let s := rowRunning
    s.cfg.forming = false ∧ s.map.entries.length + 2 ≤ 64 ∧ (rowResult s.knotPage s.knot s.pos).knotFlag = true
      ∧ ¬ s.knotPage.duration ≤ min 65535 (s.knot.knotRun + 1) := by decide
theorem witness_RowStroke_limit :
    let s := { rowRunning with knot := { rowRunning.knot with knotRun := 9 } }
    (rowResult s.knotPage s.knot s.pos).knotFlag = true ∧ s.knotPage.duration ≤ min 65535 (s.knot.knotRun + 1)
      ∧ s.knotPage.runLimit ≤ min 65535 (s.knot.knotRun + 1) ∧ LocalCause.knotRun ∉ s.station.locals
      ∧ s.station.state = .run ∧ s.station.hardHeld = false := by decide
theorem witness_RowStroke_ignored : (station .netting false .ready).knot.rowOpen = false := by decide
/-- A row of that station whose previous close was 86 mm back, under a mesh reference. -/
def checkedRow (meshRef : MeshRef) (firstRef prevAdvance : Option Nat) : RowResult :=
  rowResult { rowRunning.knotPage with meshRef }
    { rowRunning.knot with prevClose := some 0, firstRef, prevAdvance } 86
theorem witness_RowStroke_mesh : (checkedRow .first none none).advance = some 86
    ∧ (rowResult rowRunning.knotPage rowRunning.knot 86).advance = none := by decide
/-- R54 to R56: the first reference itself, references 0, 80 and 82 with tolerance 50. -/
theorem test_mesh_references :
    ((checkedRow .first none (some 80)).deviation, (checkedRow .first none (some 80)).meshFlag) = (some 0, false)
    ∧ ((checkedRow .first (some 80) none).deviation, (checkedRow .first (some 80) none).meshFlag)
      = (some 75, true)
    ∧ ((checkedRow .prev (some 80) (some 82)).deviation, (checkedRow .prev (some 80) (some 82)).meshFlag)
      = (some 48, false)
    ∧ ((checkedRow .prev none (some 0)).deviation, (checkedRow .prev none (some 0)).meshFlag)
      = (some 65535, true) := by decide
theorem witness_JniEdge_idle : (station .plain false .idle).inRun = false := by decide
theorem witness_JniEdge_merge : let s := logged (entry .join 0) { station .plain false .run with
      length := { Length.reset with acc := 200000 } }
    s.inRun = true ∧ lastLocal .join s = some (entry .join 0) ∧ s.pos - 0 ≤ 200 := by decide
theorem witness_JniEdge_insert : let s := logged (entry .join 0) { station .plain true .run with
      length := { Length.reset with acc := 201000 } }
    s.inRun = true ∧ lastLocal .join s = some (entry .join 0) ∧ 200 < s.pos - 0
      ∧ s.map.entries.length < 64 := by decide
/-- A JOIN that is not the last local one. -/
def oldJoin : MapEntry := { entry .join 0 with lastLocal := false }
/-- A station in RUN at 1,000 mm whose map holds a JOIN, this entry and 62 more JOINs. -/
def fullMap (e : MapEntry) : State := { station .plain false .run with
  length := { Length.reset with acc := 1000000 }
  map := { RunMap.reset with entries := [oldJoin] ++ e :: List.replicate 62 oldJoin } }
theorem witness_FullMap_evicts : let s := fullMap (entry .stop 0)
    64 ≤ s.map.entries.length ∧ s.inRun = true ∧ lastLocal .join s = none
      ∧ s.map.entries = [oldJoin] ++ entry .stop 0 :: List.replicate 62 oldJoin
      ∧ (∀ e ∈ [oldJoin], e.evictable = false)
      ∧ (entry .stop 0).evictable = true ∧ (entry .change 0).kind = .change := by decide
theorem witness_FullMap_refuses : let s := fullMap { entry .stop 0 with severity := .major }
    64 ≤ s.map.entries.length ∧ lastLocal .join s = none ∧ (∀ e ∈ s.map.entries, e.evictable = false)
      ∧ LocalCause.mapFull ∉ s.station.locals ∧ s.station.state = .run ∧ s.station.hardHeld = false
      ∧ LocalCause.mapFull ∈ (holding .mapFull s).station.locals
      ∧ lastLocal .dwell s = none ∧ s.length.dwelling = false
      ∧ (entry .dwell 0).severity = .minor := by decide
theorem witness_HandOff : let s := station .plain false .run
    s.ply.queue.length + (s.pace.listen.toList.filter
      (fun p => p.status == .peer && p.role == .take)).length ≤ s.ply.room := by decide
/-- R185's worked queue: ANSWER (in flight), HANDOFFs, a PKG and a HALT, eight frames. -/
def workedQueue : State :=
  let handoff (i : Nat) : QFrame := fresh (.handoff { dest := i, kind := .join, origin := 9, severity := .minor, count := 1
                                                      extent := 0, entryEnd := 0, travel := 0 })
  queued ([{ fresh (.answer 60 [7, 1, 0, 4] false) with inFlight := true }] ++ (List.range 5).map handoff
    ++ [fresh (.halt 3 .hard), handoff 5]) (station .plain false .run)
theorem witness_Enqueue_full : let s := workedQueue
    let gives (f : QFrame) : Bool := !f.body.urgent && !f.inFlight
    let urgent := queued (List.replicate 8 (fresh (.go 9))) s
    s.ply.room ≤ s.ply.queue.length ∧ (s.ply.queue.getLast?.map gives) = some true
      ∧ urgent.ply.room ≤ urgent.ply.queue.length ∧ (∀ f ∈ urgent.ply.queue, gives f = false)
      ∧ (station .plain false .run).ply.queue.length < (station .plain false .run).ply.room := by decide
/-- The summary of a package. -/
def pkgSummary : PkgSummary :=
  { number := 1, type := .normal, bank := 0, productCode := 77, startPos := 0, length := 40000, joinCount := 0
    defectCount := 0, grade := some .first, reason := some .length }
/-- R185's worked example: RESUME drops the youngest HANDOFF, a PKG is dropped, GO drops the next HANDOFF. -/
theorem test_full_queue :
    let r := enqueue (.resume 9) workedQueue
    let p := enqueue (.pkg pkgSummary) r
    let g := enqueue (.go 9) p
    (r.ply.queueDrops, p.ply.queueDrops, g.ply.queueDrops) = (1, 2, 3)
      ∧ g.ply.queue.filterMap (fun f => match f.body with | .handoff c => some c.dest | _ => none) = [0, 1, 2, 3]
      ∧ p.ply.queue = r.ply.queue := by decide
theorem witness_HardInputs_raise : let s := station .laying true .run
    StationLawful s ∧ s.inRun = true ∧ s.station.brkActive = false ∧ LocalCause.brk ∉ s.station.locals
      ∧ LocalCause.localStop ∉ s.station.locals := by decide
theorem witness_HardInputs_raise_held : let s := holding .knotRun (station .netting false .stopped)
    StationLawful s ∧ s.inRun = true ∧ s.station.setEmpty = false
      ∧ LocalCause.localStop ∉ s.station.locals := by decide
theorem witness_HardInputs_nothing :
    StationLawful (station .plain false .idle) ∧ (station .plain false .idle).inRun = false
      ∧ StationLawful (holding .brk (station .plain false .stopped))
      ∧ LocalCause.brk ∈ (holding .brk (station .plain false .stopped)).station.locals
      ∧ LocalCause.localStop ∈ (holding .localStop (station .plain false .stopped)).station.locals := by
  decide
theorem witness_HardInputs_stop_entry : let s := station .plain false .run
    let t := logged (entry .stop 0) s
    s.station.state.driven = true ∧ (∀ e ∈ t.map.entries, e.isOpen = false)
      ∧ s.ply.queue.length + 1 + (s.pace.listen.toList.filter
        (fun p => p.status == .peer && p.role == .take)).length ≤ s.ply.room
      ∧ lastLocal .stop s = none ∧ s.map.entries.length < 64
      ∧ lastLocal .stop t = some (entry .stop 0) ∧ (entry .stop 0).position = t.pos
      ∧ (station .plain false .ready).station.state = .ready
      ∧ (station .plain false .ready).ply.queue.length < (station .plain false .ready).ply.room := by decide
theorem witness_StaGivesGo : let s := station .laying false .ready
    s.station.state = .ready ∧ s.ply.queue.length < s.ply.room := by decide
theorem witness_StaGivesGo_ignored : (station .laying false .easing).station.state ≠ .ready
    ∧ (station .laying false .easing).station.state ≠ .idle := by decide
theorem witness_RunStart_sta : let s := station .laying true .idle
    s.station.setEmpty = true ∧ s.station.state = .idle ∧ s.cfg.startBank < 4
      ∧ (s.bank s.cfg.startBank).state = .loaded ∧ s.station.restartPending = false := by decide
theorem witness_RunStart_sta_ignored :
    let s := { station .plain false .idle with banks := Vector.replicate 4 .reset }
    s.station.setEmpty = true ∧ s.station.state = .idle ∧ s.cfg.startBank < 4
      ∧ (s.bank s.cfg.startBank).state ≠ .loaded := by decide
theorem witness_RunStart_run : let s := station .netting true .idle
    s.station.setEmpty = true ∧ asked head s ∧ serving s ∧ (1 : Byte).toNat ≤ 3 ∧ s.station.state = .idle
      ∧ (s.bank 1).state = .loaded ∧ (s.bank 2).state = .empty := by decide
theorem witness_RunStart_marks_and_package : let s := station .laying true .idle
    BankLawful s ∧ PackageLawful s ∧ s.cfg.forming = true := by decide
theorem witness_RunStart_run_refused : let s := station .plain false .ready
    s.station.setEmpty = true ∧ asked head s ∧ serving s ∧ s.station.state ≠ .idle := by decide
theorem witness_Clr_empties : let s := holding .twistLimit (station .laying false .easing)
    s.inRun = true ∧ StationLawful s ∧ s.station.setEmpty = false ∧ s.ply.queue.length < s.ply.room := by
  decide
theorem witness_Clr_leaves : let s := halted 3 .hard (holding .runLimit (station .plain false .stopped))
    s.inRun = true ∧ StationLawful s ∧ s.station.setEmpty = false ∧ s.ply.queue.length < s.ply.room := by
  decide
theorem witness_Clr_nothing : (station .plain false .idle).inRun = false
    ∧ (station .plain false .run).station.setEmpty = true := by decide
/-- A report of a peer in RUN. -/
def report : PaceReport :=
  { state := .run, activeBank := 0, serviceCause := 0, serviceOrigin := 0, firstCause := 0, firstOrigin := 0,
    ownOffer := 4287, feedOffer := 4286, takeOffer := 4287, runPace := 0, lastD10 := -8388608,
    windowCount := 65535, productCode := 77, position := 4294967295 }
theorem witness_PeerOffer : let e := { peer 20 .take with takeUp := 1400, lastReport := some report, stale := false }
    e.lastReport = some report ∧ report.state = .run ∧ e.stale = false ∧ e.role = .take ∧ e.takeUp = 1400
      ∧ 4286 < report.takeOffer ∧ { report with takeOffer := 4286 }.takeOffer ≤ 4286 ∧ 0 < 1080
      ∧ (peer 20 .take).stale = true ∧ (peer 20 .take).lastReport = none
      ∧ { report with state := .idle }.state ≠ .run := by decide
theorem witness_TickInRun : (station .laying false .run).station.state = .run
    ∧ (station .laying false .run).start.phase = .over := by decide
theorem witness_Tick_counts : let s := station .plain false .run
    s.length.dwellCount = 0 ∧ s.pace.period ≠ 1 ∧ s.length.dwelling = false
      ∧ 1 < (after .activeSourcePulse s).length.dwellCount
      ∧ (after .pacePeriodExpiry s).pace.period = 1 + 1
      ∧ (after .regulationTick (after .pacePeriodExpiry s)).pace.period = 1
      ∧ { s.length with dwellCount := 1 }.dwellCount = 1 := by decide
theorem witness_Tick_elsewhere : (station .plain false .idle).start.phase = .over
    ∧ (station .plain false .idle).station.state = .idle ∧ (station .plain false .held).station.state = .held
    ∧ (station .plain false .held).start.phase ≠ .inReset := by decide
theorem witness_TickInEasing : let s := holding .requestStop (station .laying false .easing)
    s.station.state = .easing ∧ s.start.phase = .over ∧ s.pace.run ≤ s.cfg.stopRamp
      ∧ ¬ 101 ≤ s.cfg.stopRamp := by decide
theorem witness_Tick_easing : let s (run period : Nat) : State := { station .plain false .easing with
      pace := { Pace.reset with run, period } }
    (s 101 1).station.state = .easing ∧ (s 101 1).start.phase = .over ∧ (s 101 1).cfg.stopRamp < (s 101 1).pace.run
      ∧ (s 101 1).pace.period = 1 ∧ (s 101 2).pace.period ≠ 1 ∧ (s 100 1).pace.run ≤ (s 100 1).cfg.stopRamp
      ∧ (s 100 1).cfg.pacePeriod ≠ 1 := by decide
/-- R130, R136: the tick that stops the station refreshes the slot, loads the period and lets it fall. -/
theorem test_easing_tick_stops : let t := after .regulationTick (holding .requestStop { station .plain false .easing with
      pace := { Pace.reset with run := 100, period := 7 } })
    t.station.state = .stopped ∧ t.pace.period = 1 ∧ t.ply.paceWaiting.map (fun f => f.report.state) = some .stopped := by
  decide
theorem witness_DwellStart_merge : let s := logged (entry .dwell 0) (station .plain false .run)
    s.station.state = .run ∧ s.length.dwelling = false ∧ lastLocal .dwell s = some (entry .dwell 0)
      ∧ (entry .dwell 0).position = s.pos := by decide
theorem witness_DwellStart_insert : let s := logged (entry .dwell 0) { station .plain true .run with
      length := { Length.reset with acc := 1000 } }
    s.station.state = .run ∧ s.length.dwelling = false ∧ lastLocal .dwell s = some (entry .dwell 0)
      ∧ (entry .dwell 0).position ≠ s.pos ∧ s.map.entries.length < 64 := by decide
theorem witness_DwellStart_ignored : (station .plain false .easing).station.state ≠ .run := by decide
theorem witness_PacePeriodExpiry : (station .plain false .idle).station.state.reports = true
    ∧ (station .plain false .idle).station.setEmpty = true
    ∧ (station .plain false .idle).activeBank = none ∧ (station .plain false .run).activeBank = some 0
    ∧ (station .plain false .held).station.state.reports = false
    ∧ (holding .brk (station .plain false .stopped)).station.firstCause = some ⟨.loc .brk, 9⟩ := by decide
theorem witness_PacePeriodExpiry_causes :
    let s := { holding .twistLimit (station .laying false .stopped) with
      station := { Station.reset with state := .stopped, locals := [.twistLimit]
                                      peers := [⟨4, .soft⟩, ⟨3, .hard⟩, ⟨5, .hard⟩] } }
    s.station.state.reports = true ∧ s.station.setEmpty = false
      ∧ s.station.peers = [⟨4, .soft⟩] ++ ⟨3, .hard⟩ :: [⟨5, .hard⟩]
      ∧ (buildReport s).serviceCause = 3 ∧ (buildReport s).serviceOrigin = 3
      ∧ (buildReport (holding .brk s)).serviceCause = 1 := by decide
/-- A HANDOFF waiting for travel. -/
def handoffFrame : QFrame := fresh (.handoff
  { dest := 20, kind := .knot, origin := 9, severity := .major, count := 3, extent := 500, entryEnd := 700,
    travel := 0 })
/-- The line idle for a number of slots. -/
def idleFor (slots : Nat) (s : State) : State := { s with ply := { s.ply with idle := slots } }
/-- R80, R179: travel is the run position less the entry's end, held within the signed 32-bit range. -/
theorem test_travel : (handoffFrame.body.fill 1000).payload.drop 8 = [0, 0, 1, 44]
    ∧ travelAt 0 4294967295 = -2147483648 := by decide
theorem witness_AccessStart_urgent :
    let s := idleFor 11 (queued ([handoffFrame] ++ fresh (.go 9) :: []) (station .plain false .run))
    2 + s.own ≤ s.ply.idle ∧ (idleFor 10 s).ply.idle < 2 + s.own ∧ s.ply.isOn = true ∧ s.ply.access = none ∧
      (∀ g ∈ [handoffFrame], g.body.urgent = false)
      ∧ (fresh (.go 9)).body.urgent = true := by decide
theorem witness_AccessStart_normal : let s := idleFor 75 (queued [handoffFrame] (station .plain false .run))
    66 + s.own ≤ s.ply.idle ∧ (idleFor 74 s).ply.idle < 66 + s.own ∧ s.ply.isOn = true ∧ s.ply.access = none ∧ s.ply.queue = handoffFrame :: []
      ∧ (∀ g ∈ [handoffFrame], g.body.urgent = false) ∧ s.ply.hold = false := by decide
/-- A report that waits. -/
def slotFilled : State := after .pacePeriodExpiry (station .plain false .run)
theorem witness_AccessStart_pace : 66 + slotFilled.own ≤ slotFilled.ply.idle ∧ slotFilled.ply.isOn = true ∧ slotFilled.ply.access = none
    ∧ slotFilled.ply.queue = [] ∧ slotFilled.ply.hold = false
    ∧ slotFilled.ply.paceWaiting = some ⟨buildReport (station .plain false .run), 0⟩ := by decide
theorem witness_AccessStart_nothing : (station .plain false .run).ply.queue = []
    ∧ (station .plain false .run).ply.paceWaiting = none := by decide
theorem witness_FrameSent_queue : ∃ f, (after .accessStart (queued [fresh (.go 9)] (station .plain false .run))).ply.queue
    = [] ++ f :: [] ∧ f.inFlight = true := ⟨{ fresh (.go 9) with inFlight := true }, by decide⟩
theorem witness_FrameSent_pace : (after .accessStart slotFilled).ply.queue = []
    ∧ (after .accessStart slotFilled).ply.paceFlight
      = some ⟨buildReport (station .plain false .run), 0⟩ := by decide
/-- The ANSWER to an accepted RESTART on the line, with a number of collisions behind it. -/
def restartAnswer (collisions : Nat) : QFrame :=
  { body := .answer 60 [7, 14, 0, 0] true, collisions, inFlight := true }
/-- A station in IDLE whose RESTART's ANSWER is on the line. -/
def restarting (collisions : Nat) : State :=
  let s := queued [restartAnswer collisions] (station .plain false .idle)
  { s with station := { s.station with restartPending := true } }
theorem witness_FrameSent_restart : (restarting 0).ply.queue = [] ++ restartAnswer 0 :: []
    ∧ (restartAnswer 0).inFlight = true ∧ (∀ p, (restartAnswer 0).body ≠ .pkg p) := ⟨by decide, rfl, fun _ => nofun⟩
/-- R158: the warm restart comes when that ANSWER has left, or is dropped at its sixteenth collision. -/
theorem test_restart_after_its_answer :
    (after (.warmRestart 9) (restarting 0)).start.phase = .over
      ∧ (after (.warmRestart 9) (after .frameSent (restarting 0))).start.phase = .attempting
      ∧ (after (.warmRestart 9) (after .collision (restarting 14))).start.phase = .over
      ∧ (after (.warmRestart 9) (after .collision (restarting 15))).start.phase = .attempting := by decide
theorem witness_FrameSent_nothing : (station .plain false .run).ply.sending = false := by decide
theorem witness_Collision_queue : let f : QFrame := { fresh (.go 9) with inFlight := true, collisions := 14 }
    let s := queued ([] ++ f :: []) (station .plain false .run)
    s.ply.paceFlight = none ∧ f.inFlight = true ∧ f.collisions + 1 < 16 ∧ 16 ≤ 15 + 1 := by decide
theorem witness_Collision_restart : (restarting 15).ply.paceFlight = none
    ∧ (restarting 15).ply.queue = [] ++ restartAnswer 15 :: [] ∧ 16 ≤ (restartAnswer 15).collisions + 1
    ∧ (restartAnswer 14).collisions + 1 < 16 := by decide
theorem witness_Collision_pace : let s := after .accessStart slotFilled
    s.ply.paceFlight = some ⟨buildReport (station .plain false .run), 0⟩ ∧ 0 + 1 < 16
      ∧ s.ply.paceWaiting = none ∧ (after .pacePeriodExpiry s).ply.paceWaiting.isSome = true
      ∧ (after .pacePeriodExpiry s).ply.paceFlight.isSome = true := by decide
theorem witness_Collision_nothing : (station .plain false .run).ply.sending = false := by decide
theorem witness_BurstGoesOn : let s := { station .plain false .run with
      ply := { Ply.reset with
        isOn := true, seenIdle := true, access := some 1, queue := [] ++ fresh (.go 9) :: [] } }
    s.ply.access = some 1 ∧ s.ply.sending = false ∧ 1 < s.cfg.burst
      ∧ (fresh (.go 9)).body.urgent = true := by decide
/-- An access in which `n` frames have gone, in the gap that follows. -/
def inGap (n : Nat) (s : State) : State := { s with ply := { s.ply with access := some n } }
theorem witness_BurstGoesOn_normal : let s := inGap 1 (queued [handoffFrame] (station .plain false .run))
    s.ply.access = some 1 ∧ s.ply.sending = false ∧ 1 < s.cfg.burst ∧ s.ply.hold = false
      ∧ (∀ g ∈ [handoffFrame], g.body.urgent = false) := by decide
theorem witness_BurstGoesOn_report : let s := inGap 1 slotFilled
    s.ply.access = some 1 ∧ s.ply.sending = false ∧ 1 < s.cfg.burst ∧ s.ply.hold = false ∧ s.ply.queue = []
      ∧ s.ply.paceWaiting.isSome = true := by decide
theorem witness_BurstGoesOn_used_up : let s := inGap 2 (queued [fresh (.go 9)] (station .plain false .run))
    s.ply.access = some 2 ∧ s.ply.sending = false ∧ s.cfg.burst ≤ 2 ∧ s.ply.pick ≠ none := by decide
theorem witness_BurstGoesOn_ends : let s := { station .plain false .run with
      ply := { Ply.reset with isOn := true, access := some 1 } }
    s.ply.access = some 1 ∧ s.ply.sending = false ∧ s.ply.pick = none
      ∧ (station .plain false .run).ply.access = none := by decide
theorem witness_ReceiveError : listening (station .plain false .held)
    ∧ (toHeld .noAck (starting .attempting 3)).ply.isOn = true
    ∧ (toHeld .noAck (starting .attempting 3)).ply.seenIdle = false
    ∧ WellFormed.failing [1, 2, 3] = true ∧ State.reset.ply.isOn = false
    ∧ (station .plain false .held).ply.firstError = none := by decide
/-- The first of the tests that these bytes fail. -/
def firstFailure (bs : List Byte) : Option LineError :=
  if lengthBad bs then some .length else if checkBad bs then some .check else laterTest bs
set_option maxRecDepth 4000 in
/-- R187: the five error types in the order of the tests. -/
theorem test_first_failure :
    firstFailure [1, 2, 3] = some .length ∧ firstFailure (frameBytes 8 3 3 0 [3] ++ [0]) = some .length
      ∧ firstFailure ((frameBytes 8 3 3 0 [3]).set 5 0) = some .check
      ∧ firstFailure (frameBytes 0 9 63 63 [3]) = some .kind ∧ firstFailure (frameBytes 0 2 63 0 [3]) = some .size
      ∧ firstFailure (frameBytes 8 3 63 0 [3]) = some .address ∧ firstFailure (frameBytes 8 3 3 63 [3]) = some .address
      ∧ firstFailure (frameBytes 8 3 3 0 [3]) = none := by decide
theorem witness_PaceFrame : hears 3 9 (station .plain false .run) ∧ reportFits report
    ∧ (frameFrom 3 report.payload).payload = report.payload := by decide
theorem witness_HaltFrame_taken : let s := station .laying true .run
    hears 3 9 s ∧ s.inRun = true ∧ StationLawful s ∧ s.peerOf 3 = some (peer 3 .feed) ∧ 62 ≠ s.own
      ∧ (∀ p ∈ s.station.peers, p.origin ≠ 62) ∧ s.station.peers.length < 8
      ∧ (frameFrom 3 [62, 1]).payload = [BitVec.ofNat 8 62, BitVec.ofNat 8 (Code.level .hard)] := by decide
theorem witness_HaltFrame_ignored : let s := station .plain false .run
    hears 4 9 s ∧ s.peerOf 4 = none ∧ (station .plain false .idle).inRun = false
      ∧ (∃ p ∈ (halted 5 .soft (station .plain false .easing)).station.peers, p.origin = 5) := by decide
/-- A station with eight SOFT halt records, of origins 30 to 37. -/
def eightHalts (state : StationState) : State :=
  let s := halted 30 .soft (station .plain false state)
  { s with station := { s.station with peers := (List.range 8).map (fun i => ⟨30 + i, .soft⟩) } }
theorem witness_HaltFrame_overflow : let s := eightHalts .easing
    hears 3 9 s ∧ s.inRun = true ∧ s.peerOf 3 = some (peer 3 .feed) ∧ 3 ≠ s.own
      ∧ (∀ p ∈ s.station.peers, p.origin ≠ 3) ∧ 8 ≤ s.station.peers.length ∧ StationLawful s
      ∧ LocalCause.peerOverflow ∉ s.station.locals ∧ s.ply.queue.length < s.ply.room
      ∧ StationLawful (eightHalts .stopped)
      ∧ LocalCause.peerOverflow ∈ (holding .peerOverflow s).station.locals := by decide
theorem witness_ResumeFrame_taken : let s := halted 3 .hard (station .plain false .stopped)
    hears 4 9 s ∧ (∃ p ∈ s.station.peers, p.origin = 3) ∧ StationLawful s ∧ s.inRun = true
      ∧ s.ply.queue.length < s.ply.room ∧ (frameFrom 4 [3]).payload = [BitVec.ofNat 8 3] := by decide
theorem witness_ResumeFrame_ignored : let s := halted 3 .hard (station .plain false .stopped)
    hears 4 9 s ∧ (∀ p ∈ s.station.peers, p.origin ≠ 5) := by decide
theorem witness_GoFrame_taken : let s := station .netting false .ready
    hears 3 9 s ∧ s.station.state = .ready ∧ s.peerOf 3 = some (peer 3 .feed)
      ∧ s.ply.queue.length < s.ply.room ∧ (frameFrom 3 [1]).payload = [BitVec.ofNat 8 1] := by decide
theorem witness_GoFrame_ignored : hears 4 9 (station .plain false .ready)
    ∧ (station .plain false .ready).peerOf 4 = none ∧ (station .plain false .run).station.state ≠ .ready := by
  decide
/-- A copy at the edges of its fields. -/
def copy : HandoffCopy :=
  { dest := 9, kind := .knot, origin := 62, severity := .minor, count := 255, extent := 4294967295,
    entryEnd := 0, travel := -2147483648 }
theorem witness_HandoffFrame_joins : let s := station .plain false .run
    hears 3 9 s ∧ copyFits copy ∧ s.station.state.reports = true ∧ s.inRun = true
      ∧ s.peerOf 3 = some (peer 3 .feed) ∧ copy.travel < ((peer 3 .feed).path : Int)
      ∧ { copy with travel := 4999 }.travel < ((peer 3 .feed).path : Int)
      ∧ s.pace.arrivals.length < 12 := by decide
theorem witness_HandoffFrame_arrives : let s := station .plain false .run
    ((peer 3 .feed).path : Int) ≤ { copy with travel := 5000 }.travel ∧ copy.origin ≠ s.own
      ∧ s.cfg.forming = false ∧ s.map.entries.length < 64 ∧ { copy with origin := 9 }.origin = s.own
      ∧ copyFits { copy with travel := 5000 } ∧ copyFits { copy with origin := 9, travel := 5000 } := by decide
/-- A record the full list may give up (R144). -/
def lightArrival (x : Arrival) : Bool := x.severity == .minor && x.kind != .join && x.kind != .change
/-- Twelve pending arrivals, the third a MINOR TWIST, the others JOINs. -/
def twelve : List Arrival := List.replicate 2 (arrival .join .minor 4 1000) ++ arrival .twist .minor 4 1000
  :: List.replicate 9 (arrival .join .minor 4 1000)
theorem witness_HandoffFrame_full : let s := awaiting twelve (station .plain false .run)
    let lost := awaiting (List.replicate 12 (arrival .change .minor 4 1000)) s
    hears 3 9 s ∧ s.inRun = true ∧ s.peerOf 3 = some (peer 3 .feed) ∧ 12 ≤ s.pace.arrivals.length
      ∧ lightArrival (arrival .knot .minor 62 0) = true ∧ lightArrival (arrival .knot .major 62 0) = false
      ∧ lightArrival (arrival .twist .minor 4 1000) = true
      ∧ (∀ x ∈ List.replicate 9 (arrival .join .minor 4 1000), lightArrival x = false)
      ∧ 12 ≤ lost.pace.arrivals.length ∧ (∀ x ∈ lost.pace.arrivals, lightArrival x = false)
      ∧ LocalCause.handoffLost ∉ lost.station.locals ∧ lost.station.state = .run
      ∧ lost.station.hardHeld = false := by decide
theorem witness_HandoffFrame_ignored : hears 20 9 (station .plain false .run)
    ∧ (station .plain false .run).peerOf 20 = some (peer 20 .take)
    ∧ (station .plain false .idle).station.state.reports = true ∧ (station .plain false .idle).inRun = false
    ∧ (station .plain false .start).station.state.reports = false := by decide
/-- A forming station in READY with its first package open. -/
def formingReady : State :=
  { station .plain true .ready with former := (startPackages (station .plain true .ready)).former }
theorem witness_HandoffFrame_forming : let s := formingReady
    let e := { entry .change 0 with origin := 3 }
    hears 3 9 s ∧ s.inRun = true ∧ s.peerOf 3 = some (peer 3 .feed) ∧ s.cfg.forming = true
      ∧ s.openPackage.isSome = true ∧ e.severity = .minor ∧ e.kind = .change ∧ e.origin ≠ 0
      ∧ { entry .knot 0 with severity := .major }.severity = .major
      ∧ (entry .change 0).origin = 0 ∧ s.pos < e.position + s.cfg.cutterOffset ∧ s.former.cuts.length < 6
      ∧ e.position + s.cfg.cutterOffset
        ≤ { s with length := { Length.reset with acc := 6000000 } }.pos := by decide
/-- R105: in a full list the first PACKAGE_END gives way to a change cut; with none it is refused and counted. -/
theorem test_change_cut_in_a_full_list :
    let e := { entry .change 45000 with origin := 3 }
    let ends := List.replicate 5 (newCut 50000 .scrapEnd false none)
    ((entryInserted fire e (setCuts (ends ++ [planCut 60000]) formingReady)).former.cuts.map (fun c => c.purpose)
        = .change :: List.replicate 5 .scrapEnd)
      ∧ (entryInserted fire e (setCuts (ends ++ ends.take 1) formingReady)).former.cutsRefused = 1 := by decide
theorem witness_PkgAndAnswer : hears 60 0 (station .plain false .idle)
    ∧ (frameFrom 60 (List.replicate 19 0)).payload.length = 19
    ∧ 4 ≤ (frameFrom 60 (List.replicate 4 0)).payload.length
    ∧ clashes 9 0 (station .plain false .idle) ∧ clashes 9 9 (station .plain false .run)
    ∧ (List.replicate 24 (0 : Byte)).length ≤ 24 ∧ (List.replicate 22 (0 : Byte)).length ≤ 22 := by decide
/-- R188: a GO from the own number starts nothing and is counted. -/
theorem test_own_number_clashes :
    let t := after (.goFrame { top := 0, sender := 9, dest := 0, payload := [3] }) (station .plain false .ready)
    t.station.state = .ready ∧ t.ply.numberClash = 1 := by decide
theorem witness_ReadRequests : let s := station .plain true .idle
    asked head s ∧ serving s ∧ (12 : Byte).toNat ≤ 12 ∧ 12 < (13 : Byte).toNat ∧ (5 : Byte).toNat < 6
      ∧ (2 : Byte).toNat ≤ 2 ∧ (3 : Byte).toNat ≤ 3 ∧ (s.pace.listen[0]).status ≠ .unused
      ∧ (s.pace.listen[5]).status = .unused ∧ s.cfg.forming = true
      ∧ (station .plain false .idle).cfg.forming = false := by decide
/-- R193: page 2 of a station at 84,100 mm. -/
theorem test_status_page_2 :
    statusPage { station .plain false .run with length := { Length.reset with acc := 84100999, lastSlip := 20 }
                                                marks := { Marks.reset with counter := 99999, interval := 1 } } 2
      = [0, 1, 0x48, 0x84, 1, 0, 0, 0, 20, 0, 1, 0x86, 0x9F, 1, 0, 0] := by decide
set_option maxRecDepth 4000 in
theorem witness_BankWrite : let s := station .plain false .run
    asked head s ∧ serving s ∧ (s.bank 0).state = .active ∧ (s.bank 1).state = .loaded
      ∧ (s.bank 3).state = .empty ∧ (List.replicate 128 (0 : Byte)).length = 128
      ∧ operandsFit 7 (3 :: 0 :: TwistPage.bytes ⟨380, 20, 60, 2, 4, 1000⟩) = true
      ∧ operandsFit 7 (1 :: 1 :: [4, 24, 2, 2, 2, 5, 0, 10, 0, 50, 1]) = true
      ∧ operandsFit 7 (0 :: 2 :: List.replicate 20 1) = true
      ∧ operandsFit 7 (0 :: 2 :: List.replicate 20 2) = false
      ∧ operandsFit 7 (1 :: 1 :: [4, 24, 2, 3, 2, 5, 0, 10, 0, 50, 1]) = false
      ∧ operandsFit 7 (4 :: 0 :: List.replicate 10 0) = false ∧ operandsFit 7 [1] = false := by decide
/-- R117's example: tolM 250 and tolX 150 store 200 and 200, and two fields are clamped. -/
theorem test_written_page :
    (twistWritten [1, 124, 0, 250, 0, 150, 2, 4, 3, 232]).1.tolX = 200
      ∧ (twistWritten [1, 124, 0, 250, 0, 150, 2, 4, 3, 232]).2 = 2 := by decide
theorem witness_Change : let s := station .laying false .run
    asked head s ∧ serving s ∧ s.inRun = true ∧ BankLawful s ∧ (s.bank 1).state = .loaded
      ∧ s.cfg.kind ≠ .plain ∧ (s.bank 0).state = .active ∧ (s.bank 2).state = .empty
      ∧ ({ s with banks := #v[fullBank .active, fullBank .staged, .reset, .reset] }.bank 1).state = .staged
      ∧ (station .plain false .idle).inRun = false := by decide
theorem witness_Change_at_once : let s := station .plain false .run
    asked head s ∧ serving s ∧ s.inRun = true ∧ BankLawful s ∧ (s.bank 1).state = .loaded ∧ s.cfg.kind = .plain
      ∧ s.cfg.forming = false ∧ s.stagedBank = none ∧ s.map.entries.length < 64
      ∧ s.ply.queue.length + (s.pace.listen.toList.filter
        (fun p => p.status == .peer && p.role == .take)).length ≤ 7 := by decide
theorem witness_Change_switch :
    let s := { station .laying true .run with banks := #v[fullBank .active, fullBank .staged, .reset, .reset] }
    BankLawful s ∧ s.inRun = true ∧ s.map.entries.length < 64 ∧ (∀ e ∈ s.map.entries, e.isOpen = false)
      ∧ (s.bank 1).state = .staged := by decide
theorem witness_GoAndStop : let s := station .laying false .ready
    asked head s ∧ serving s ∧ s.station.state = .ready ∧ s.ply.queue.length + 2 ≤ 8 ∧ s.inRun = true
      ∧ StationLawful s ∧ LocalCause.localStop ∉ s.station.locals
      ∧ (station .plain false .idle).station.state ≠ .ready ∧ (station .plain false .idle).inRun = false
      ∧ asked head (holding .requestStop (station .plain false .easing))
      ∧ LocalCause.requestStop ∈ (holding .requestStop (station .plain false .easing)).station.locals := by
  decide
theorem witness_Clear : let s := halted 3 .hard (holding .localStop (station .plain false .stopped))
    asked head s ∧ serving s ∧ StationLawful s ∧ s.ply.queue.length + 2 ≤ 8 := by decide
theorem witness_End : let s := holding .runLimit (station .plain true .stopped)
    asked head s ∧ serving s ∧ s.station.state = .stopped
      ∧ (station .plain false .run).station.state ≠ .ready
      ∧ (station .plain false .run).station.state ≠ .stopped := by decide
theorem witness_End_package : let s := formingReady
    s.openPackage.isSome = true ∧ asked head s ∧ s.station.state = .ready ∧ serving s
      ∧ s.ply.queue.length + (unsentOf s.former.table).length + 3 ≤ 8 := by decide
/-- R110, R157, R168: END of a forming station that holds a local cause queues PKG, RESUME, then the ANSWER. -/
theorem test_end_queue :
    let s := holding .localStop { formingReady with station := { formingReady.station with state := .stopped } }
    (after (.askEnd ⟨head, []⟩) s).ply.queue.map (fun f => (f.body.bytes 9).take 1) = [[0x06], [0x83], [0x08]] := by
  decide
theorem witness_RestartAndUnknown :
    asked head (station .plain false .idle) ∧ (station .plain false .idle).station.restartPending = false
      ∧ asked head (station .plain false .held) ∧ (station .plain false .held).station.state = .held
      ∧ (station .plain false .run).station.state ≠ .idle
      ∧ WellFormed.unknownRequest 0 = true ∧ WellFormed.unknownRequest 15 = true := by decide
/-- The head of an ASK from station 60 to all stations. -/
def headAll : AskHead := { head with dest := 0 }
theorem witness_Asks_refused : let s := station .plain false .idle
    let pending := { s with station := { s.station with restartPending := true } }
    asked head pending ∧ pending.station.restartPending = true ∧ operandsFit 14 [] = true
      ∧ operandsFit 8 [3] = true ∧ operandsFit 8 [4] = false ∧ operandsFit 11 [0] = false
      ∧ operandsFit 12 [1] = true ∧ operandsFit 12 [2] = false ∧ operandsFit 15 [] = false := by decide
theorem witness_Asks_lost_and_broadcast : let s := station .plain false .ready
    hears head.sender head.dest (queued (List.replicate 8 (fresh (.go 9))) s) ∧ head.dest ≠ 0
      ∧ 8 ≤ (queued (List.replicate 8 (fresh (.go 9))) s).ply.queue.length
      ∧ hears headAll.sender headAll.dest s ∧ headAll.dest = 0 ∧ s.station.state = .ready ∧ s.inRun = true
      ∧ LocalCause.requestStop ∉ s.station.locals ∧ StationLawful s ∧ s.station.setEmpty = true
      ∧ (halted 3 .hard (station .plain false .stopped)).station.setEmpty = false
      ∧ hears headAll.sender headAll.dest (station .plain false .held)
      ∧ operandsFit 10 [] = true ∧ operandsFit 10 [0] = false := by decide
/-- R191: a broadcast END is counted and ends nothing. -/
theorem test_broadcast_end : let t := after (.askEnd ⟨headAll, []⟩) (station .plain false .ready)
    t.station.state = .ready ∧ t.ply.asksDropped = 1 ∧ t.ply.queue = [] := by decide
/-- The first package of a run, OPEN from position 0. -/
def firstPackage : PackageRecord :=
  { number := 1, type := .normal, bank := 0, productCode := 77, startPos := 0, endPos := none, joinCount := 0
    joins := [], defects := [], defectsDropped := 0, grade := none, reason := none, state := .opened
    report := none }
/-- R106, R107: a straddling TWIST leaves its head, a JOIN its offset, and the ninth item, MAJOR, takes the place
of the first MINOR one. -/
theorem test_closed_lists :
    let knot (i : Nat) : MapEntry := { entry .knot (2000 + i) with severity := .major }
    let r := { firstPackage with startPos := 1000 }.close ((fullBank .loaded).package.getD .absent) 5000 .change
      ([{ entry .twist 500 with extent := 100 }, entry .join 1500] ++ (List.range 7).map knot
        ++ [{ entry .twist 4900 with extent := 300, severity := .major }])
    r.joins = [500] ∧ r.defects.map (fun d => d.offset) = [3900, 1000, 1001, 1002, 1003, 1004, 1005, 1006]
      ∧ r.defects.head?.map (fun d => d.extent) = some 100 ∧ r.defectsDropped = 1 := by decide
theorem witness_ClosedPackage : (fullBank .loaded).package.map (fun p => p.maxJoins) = some 2 := by decide
/-- The first package of a run, 40,000 mm with plan distance 5,000, at a run position in mm. -/
def formingAt (mm : Nat) : State :=
  { formingReady with length := { Length.reset with acc := mm * 1000 } }
theorem witness_Former_open : (formingAt 0).openPackage = some firstPackage := by decide
theorem witness_Former_place : ahead (formingAt 35000) (planCut 29001) ∧ ¬ ahead (formingAt 35000) (planCut 29000)
    ∧ (formingAt 35000).former.cuts.length < 6 := by decide
theorem witness_Former_full_list : let s := setCuts (List.replicate 6 (planCut 50000)) (formingAt 35000)
    s.openPackage = some firstPackage ∧ ahead s (planCut 40000) ∧ ¬ s.former.cuts.length < 6 := by decide
theorem witness_Former_plan : let s := formingAt 35000
    s.cfg.forming = true ∧ (∀ c ∈ s.former.cuts, ahead s c)
      ∧ planDue s firstPackage.type firstPackage.startPos (s.packagePage 0) s.former.cuts
      ∧ ¬ planDue (formingAt 34999) firstPackage.type firstPackage.startPos (s.packagePage 0) s.former.cuts
      ∧ s.pos < firstPackage.startPos + (s.packagePage 0).target + s.cfg.cutterOffset
      ∧ (∀ e ∈ s.map.entries, e.blocker = false) := by decide
/-- A blocker that ends where the plan's window begins: start + target − X = 38,500 (R89). -/
theorem witness_Former_plan_beside_a_blocker :
    let s := logged { entry .join 38000 with extent := 500 } (formingAt 38500)
    ∀ e ∈ s.map.entries, e.blocker = true → 0 + 40000 + 1500 ≤ e.position
      ∨ e.position + e.extent + 1500 ≤ 0 + 40000 := by decide
theorem witness_Former_cut_out : let s := setCuts [planCut 40000] (formingAt 36000)
    (∀ c ∈ s.former.cuts, c.purpose = .packageEnd) ∧ s.former.cuts.length ≤ 6
      ∧ firstPackage.startPos + 1500 < (entry .knot 31501).position
      ∧ (∀ c ∈ s.former.cuts, (entry .knot 31501).position < c.position + 1500)
      ∧ s.pos + 1500 < (entry .knot 31501).position + s.cfg.cutterOffset := by decide
theorem witness_Former_cut_out_at_the_start : let s := formingAt 8999
    (entry .knot 1500).position ≤ firstPackage.startPos + 1500
      ∧ s.pos < (entry .knot 1500).position + 0 + 1500 + s.cfg.cutterOffset := by decide
theorem witness_Former_fire : let s := formingAt 46000
    firstPackage.startPos < 40000 ∧ (s.packagePage 0).haltAtClose = false ∧ s.stagedBank = none
      ∧ s.activeBank = some 0 ∧ s.former.table.length < 16
      ∧ s.ply.queue.length + (unsentOf s.former.table).length < s.ply.room
      ∧ ¬ planDue s .normal 40000 (s.packagePage 0) [] := by decide
/-- R15, R13: a mark point at the closing package's length of 40,000 mm falls due at the fire, before the
marks restart with 00001. -/
theorem test_mark_at_the_fire :
    let s := formingAt 46000
    let t := fire (planCut 40000) 40000 0 { s with marks :=
      { s.marks with interval := 1, counter := 40, next := some 40000 } }
    t.marks.printer = some (markBits 40) ∧ t.marks.counter = 1 ∧ t.marks.next = some 1000 := by decide
/-- R95, R104: a firm SCRAP_END moved beyond the run position less X is not firm, and one not moved stays so. -/
theorem test_moved_cut_is_tested_afresh :
    let s := setCuts [{ newCut 33000 .scrapEnd false (some 0) with firm := true }] (formingAt 35000)
    (extendCut 0 34000 false s).former.cuts.map (fun c => (c.position, c.firm)) = [(34000, false)]
      ∧ (extendCut 0 33400 false s).former.cuts.map (fun c => (c.position, c.firm)) = [(33400, true)]
      ∧ (extendCut 0 30000 false s).former.cuts.map (fun c => (c.position, c.firm)) = [(33000, true)] := by decide
/-- R108: a SCRAP_END that waits for an open entry which the close takes whole is carried over as it stands. -/
theorem test_close_keeps_the_waiting_cut :
    let e : MapEntry := { entry .twist 39000 with isOpen := true, extent := 500, severity := .major }
    let c := { newCut 41000 .scrapEnd true (some 37500) with placed := 3 }
    let t := fire (planCut 40000) 40000 0 (logged e (setCuts [c] (formingAt 46000)))
    t.former.cuts = [c] ∧ t.map.entries = [] := by decide
/-- R94, R103: a released SCRAP_END that stays at 33,000 mm or moves on to 34,000 mm stands there before a cut
placed later and after one placed earlier; it is firm at that move when X past it is reached (R95). -/
theorem test_released_cut_stands_by_placement :
    let s (placed : Nat) := setCuts [{ newCut 33000 .scrapEnd true (some 0) with placed },
      { cutAt 33000 .change none none with placed := 5 }, { cutAt 34000 .change none none with placed := 6 }]
      (formingAt 35000)
    let order (placed final : Nat) : List (Nat × CutPurpose × Bool) :=
      (entryClosed fire (s placed) { entry .twist final with severity := .major }).former.cuts.map
        (fun c => (c.position, c.purpose, c.firm))
    order 4 31500 = [(33000, .scrapEnd, true), (33000, .change, false), (34000, .change, false)]
      ∧ order 4 32500 = [(33000, .change, false), (34000, .scrapEnd, false), (34000, .change, false)]
      ∧ order 7 32500 = [(33000, .change, false), (34000, .change, false), (34000, .scrapEnd, false)] := by decide
/-- R94: a cut placed now at the position of another stands after it and is the latest placed. -/
theorem test_placement_order :
    let s := setCuts [{ newCut 40000 .scrapEnd false (some 0) with placed := 2 }] (formingAt 35000)
    (placeCut fire (cutAt 40000 .change none none) 0 s).former.cuts.map (fun c => (c.purpose, c.placed))
      = [(.scrapEnd, 2), (.change, 3)] := by decide
theorem witness_Former_pulse : let s := formingAt 40000
    s.cfg.kind = .plain ∧ s.cfg.forming = true ∧ s.cfg.stepB = 0 ∧ s.pace.arrivals = [] ∧ s.inRun = true
      ∧ withinRunLimit s := by decide
/-- R96: the pulse that brings 46,000 mm fires the cut of 40,000 mm, the one before does not. -/
theorem test_pulse_fires_a_cut :
    let s (acc : Nat) : State := setCuts [planCut 40000] { formingReady with length := { Length.reset with acc } }
    (after .activeSourcePulse (s 45999500)).former.table.length = 1
      ∧ (after .activeSourcePulse (s 45999750)).former.table.map (fun r => (r.endPos, r.startPos))
        = [(some 40000, 0), (none, 40000)] := by decide
/-- A waiting SCRAP_END and two cuts at their fire points. -/
def twoDue : State := setCuts [newCut 30000 .scrapEnd true (some 0), cutAt 39000 .change none none,
  cutAt 40000 .change none none] (formingAt 46000)
theorem witness_Former_due : let s := twoDue
    s.cfg.forming = true ∧ (∀ q ∈ s.former.cuts.take 1, ahead s q) ∧ (∀ q ∈ s.former.cuts.drop 1, ¬ ahead s q) := by
  decide
/-- After the second fire nothing is left to do: the open package is SCRAP and its SCRAP_END waits. -/
theorem witness_Former_due_done :
    let one := fire (cutAt 39000 .change none none) 39000 0 (setCuts (twoDue.former.cuts.eraseIdx 1) twoDue)
    let two := fire (cutAt 40000 .change none none) 40000 0 (setCuts [newCut 30000 .scrapEnd true (some 0)] one)
    (∀ c ∈ two.former.cuts, ahead two c) ∧ two.openPackage.map (fun p => p.type) = some .scrap := by decide
theorem witness_Former_due_one :
    let one := fire (planCut 40000) 40000 0 (setCuts [] (formingAt 46000))
    one.former.cuts = [] ∧ one.openPackage.all (fun p =>
      !decide (planDue one p.type p.startPos (one.packagePage p.bank) one.former.cuts)) = true := by decide
/-- A full list of a cut at 20,000 mm with this purpose and five SCRAP_STARTs. -/
def sixCuts (purpose : CutPurpose) : State :=
  setCuts (newCut 20000 purpose false (some 19000) :: List.replicate 5 (cutAt 31000 .scrapStart none none))
    (formingAt 35000)
/-- Merging with, extending and refusing (R104): the cut-out of 32,500 mm has C1 31,000 mm. -/
theorem witness_Former_cut_out_of_room :
    let s (purpose : CutPurpose) : State := sixCuts purpose
    let far := entry .knot 33000
    (newCut 28000 .scrapEnd false (some 31000)).pairStart.getD 0 ≤ (entry .knot 32500).position - 1500
      ∧ (entry .knot 32500).position - 1500 ≤ 28000 + 2 * 1500
      ∧ (entry .knot 32501).position - 1500 > 28000 + 2 * 1500
      ∧ (s .scrapEnd).former.cuts.length ≤ 6 ∧ far.position - 1500 > 20000 + 2 * 1500
      ∧ ¬ (s .scrapEnd).former.cuts.length + 2 ≤ 6 + (s .scrapEnd).former.cuts.countP (fun c => c.purpose == .packageEnd)
      ∧ (∀ q ∈ (s .change).former.cuts, q.purpose ≠ .scrapEnd) := by decide
/-- R104: that cut-out without room extends the last SCRAP_END to 34,500 mm; with none it is refused. -/
theorem test_cut_out_without_room :
    let s (purpose : CutPurpose) : State := sixCuts purpose
    ((cutOut fire (entry .knot 33000) false (s .scrapEnd)).1.former.cuts.getLast?.map (fun c => c.position))
        = some 34500
      ∧ (cutOut fire (entry .knot 33000) false (s .change)).1.former.cutsRefused = 1 := by decide
theorem witness_Former_release :
    let s := setCuts ([planCut 50000] ++ newCut 33000 .scrapEnd true (some 0) :: []) (formingAt 35000)
    s.cfg.forming = true ∧ (∀ q ∈ [planCut 50000], q.waiting = false)
      ∧ (newCut 33000 .scrapEnd true (some 0)).waiting = true ∧ s.pos < 33000 + s.cfg.cutterOffset
      ∧ ¬ (formingAt 39000).pos < 33000 + s.cfg.cutterOffset := by decide
theorem witness_Former_at_the_start :
    let s := formingAt 10000
    (0 : Nat) ≤ firstPackage.startPos ∧ s.former.cuts.countP (fun q => q.purpose == .scrapEnd) = 0
      ∧ (setCuts [newCut 3000 .scrapEnd false none] s).former.cuts.countP (fun q => q.purpose == .scrapEnd) = 1
      ∧ ¬ planDue s .normal 0 (s.packagePage 0) s.former.cuts := by decide
theorem witness_Former_fire_staged : let s := staging (formingAt 46000)
    firstPackage.startPos < 40000 ∧ BankLawful s ∧ s.stagedBank.or s.activeBank = some 1
      ∧ s.former.table.length < 16 ∧ s.ply.queue.length < s.ply.room
      ∧ ¬ planDue s .normal 40000 (s.packagePage 1) [] := by decide
/-- R122: the bank STAGED is the next package's. -/
theorem test_staged_bank_at_package_close :
    let t := fire (planCut 40000) 40000 0 (staging (formingAt 46000))
    (t.bank 1).state = .active ∧ t.openPackage.map (fun p => (p.bank, p.startPos)) = some (1, 40000) := by decide
/-- The package page of the small states: target 40,000 mm, min 32,000, max 48,000, margin 1,500. -/
def page : PackagePage := (fullBank .loaded).package.getD .absent
/-- A blocker from a position, this long. -/
def blocker (position extent : Nat) : MapEntry := { entry .join position with extent }
/-- R99: early 28,500 leaves too little and late 47,500 is within max; early 38,500 fits; both fail for a
blocker up to 47,000. -/
theorem test_plan_resolution :
    resolvePlan page 0 6000 30000 [blocker 40000 0] = .at_ 38500
      ∧ resolvePlan page 0 6000 44500 [blocker 40000 0] = .at_ 41500
      ∧ resolvePlan page 0 6000 30000 [blocker 30000 16000] = .at_ 47500
      ∧ resolvePlan page 0 6000 30000 [blocker 30000 17000] = .cutOut (blocker 30000 17000) := by decide
theorem witness_Plan_free : let entries := [blocker 40000 0]
    (38500 : Int) ≤ (0 + page.target : Nat) ∧ freeAt 1500 entries 38500 ∧ ¬ freeAt 1500 entries 40000
      ∧ (∀ y : Int, 38500 < y → y ≤ 40000 → ¬ freeAt 1500 entries y)
      ∧ freeAt 1500 entries 41500 ∧ (∀ y : Int, 40000 ≤ y → y < 41500 → ¬ freeAt 1500 entries y) := by
  refine ⟨by decide, by decide, by decide, ?_, by decide, ?_⟩ <;> intro y h1 h2 h <;>
    have := h (blocker 40000 0) (by decide) (by decide) <;> simp [blocker, entry, closedPoint] at this <;> omega
theorem witness_Plan_loose : let s := logged (blocker 40000 0) (setCuts ([] ++ planCut 40000 :: []) (formingAt 35000))
    s.openPackage = some firstPackage ∧ (planCut 40000).purpose = .packageEnd ∧ (planCut 40000).plan = some .length
      ∧ (planCut 40000).firm = false ∧ ¬ freeAt 1500 s.map.entries 40000 := by decide
theorem witness_Plan_join_limit : let s (at_ : Nat) : State := { formingAt 35000 with map := { RunMap.reset with
      entries := [oldJoin, oldJoin, entry .join at_] } }
    firstPackage.type = .normal ∧ (s 33500).cfg.forming = true
      ∧ (s 33500).former.cuts = [] ∧ page.maxJoins < (s 33500).map.entries.countP (fun m => m.kind == .join)
      ∧ 0 + page.target * page.minimum / 1000 + 1500 ≤ (entry .join 33500).position
      ∧ (entry .join 33499).position < 0 + page.target * page.minimum / 1000 + 1500 := by decide
/-- R100: the join beyond max joins ends the package X before it. -/
theorem test_join_limit :
    (entryInserted fire (entry .join 34000) { formingAt 35000 with map := { RunMap.reset with
      entries := [oldJoin, oldJoin, entry .join 34000] } }).former.cuts
      = [{ planCut 32500 with plan := some .joinLimit, firm := true }] := by decide
/-- R99, step 3: the blocker that no plan avoids is cut out and the plan in the list is discarded. -/
theorem test_plan_cut_out :
    (checkPlan fire (logged (blocker 30000 17000) (setCuts [planCut 40000] (formingAt 30000)))).former.cuts.map
      (fun c => (c.position, c.purpose)) = [(28500, .scrapStart), (48500, .scrapEnd)] := by decide
/-- A table of 15 records closed before the first package, two of them UNSENT, and the open one. -/
def fullTable (first : PackageState) : State :=
  let record (i : Nat) : PackageRecord := { firstPackage with
    number := 100 + i, endPos := some 0, state := if i = 0 then first else .closed
    report := if i = 0 ∧ first = .reported then none else some (if i = 1 ∨ i = 5 then .unsent else .queued) }
  let s := formingAt 46000
  { s with former := { s.former with table := (List.range 15).map record ++ [firstPackage] } }
theorem witness_Former_fire_full_table : let s := fullTable .closed
    s.openPackage = some firstPackage ∧ s.former.table.length = 16 ∧ (unsentOf s.former.table).length = 2
      ∧ s.ply.queue.length + 2 < s.ply.room ∧ s.stagedBank.or s.activeBank = some 0 := by decide
/-- R92, R93: the two UNSENT records are queued before the closing one, and the oldest REPORTED record, or with
none the oldest CLOSED one, makes room for the next. -/
theorem test_full_table :
    let t (first : PackageState) := fire (planCut 40000) 40000 0 (fullTable first)
    (t .reported).ply.queue.map (fun f => match f.body with | .pkg p => p.number | _ => 0) = [101, 105, 1]
      ∧ (t .reported).former.table.length = 16 ∧ (t .reported).former.reportsLost = 0
      ∧ (t .closed).former.reportsLost = 1 ∧ (t .closed).former.table.head?.map (fun r => r.number) = some 101
      ∧ (t .closed).former.table.all (fun r => r.report != some .unsent) = true := by decide
/-- Two cuts at one position in the order of their placement. -/
def twoPlaced : State := setCuts [{ cutAt 40000 .change none none with placed := 1 },
  { newCut 40000 .scrapEnd false (some 0) with placed := 2 }] (formingAt 35000)
theorem witness_Cuts : CutsLawful twoPlaced ∧ twoPlaced.former.cuts.length = 2 := by decide
theorem witness_Laws_run : Lawful (station .laying false .run) := by
  refine ⟨?_, ?_, ?_, ?_, ?_, ?_, ?_, ?_⟩ <;> decide
theorem witness_Laws_forming : Lawful formingReady := by refine ⟨?_, ?_, ?_, ?_, ?_, ?_, ?_, ?_⟩ <;> decide
theorem witness_Laws_stopped :
    Lawful (halted 3 .hard (holding .localStop (station .netting false .stopped))) := by
  refine ⟨?_, ?_, ?_, ?_, ?_, ?_, ?_, ?_⟩ <;> decide
theorem witness_PositionNeverDecreases : let s := station .plain false .run
    exec .activeSourcePulse s = .next (after .activeSourcePulse s) ∧ s.length.acc ≤ 4294967295999
      ∧ s.inRun = true ∧ (after .activeSourcePulse s).inRun = true := ⟨rfl, by decide⟩
theorem witness_StationState : let s := station .plain false .run
    StationLawful s ∧ runBounds s ∧ Instr.stpEdge ≠ .coldReset
      ∧ exec .stpEdge s = .next (after .stpEdge s) := ⟨by decide, by decide, by decide, rfl⟩
theorem witness_StepsKeep : let s := { station .plain false .run with pending := [.stpEdge] }
    Lawful s ∧ step s = .next (after .stpEdge (station .plain false .run)) := by
  refine ⟨⟨?_, ?_, ?_, ?_, ?_, ?_, ?_, ?_⟩, rfl⟩ <;> decide
theorem witness_Payloads : reportFits report ∧ copyFits copy ∧ (List.replicate 24 (0 : Byte)).length ≤ 24 := by
  decide

end Sys2Proof.Tests
end

section
/-!
PROOF. Rules about the shared operations that run position and length metering rest on: what each measuring
command calls, queuing with room, GO, the offer of a closed entry, a dwell, and raising a SOFT cause.
-/

namespace Sys2Proof.Machine

open Sys2Proof.Safety

/-! ## What each measuring command calls -/

@[simp] theorem exec_activeSourcePulse (s : State) : exec .activeSourcePulse s = .next (activePulse s) := rfl
@[simp] theorem exec_nonActiveSourcePulse (s : State) :
    exec .nonActiveSourcePulse s = .next (nonActivePulse s) := rfl
@[simp] theorem exec_spindlePulse (s : State) : exec .spindlePulse s = .next (spindlePulse s) := rfl
@[simp] theorem exec_sectionEdge (i : Fin 8) (s : State) :
    exec (.sectionEdge i) s = .next (sectionEdge i s) := rfl
@[simp] theorem exec_dwellStart (s : State) : exec .dwellStart s = .next (beginDwell s) := rfl

theorem exec_staEdge_ready {s : State} (ready : s.station.state = .ready) :
    exec .staEdge s = .next (takeGo s.own s) := by
  simp [exec, execStaEdge, ready]

theorem exec_staEdge_ignored {s : State} (notReady : s.station.state ≠ .ready)
    (notIdle : s.station.state ≠ .idle) : exec .staEdge s = .next s := by
  change execStaEdge s = _
  unfold execStaEdge
  split
  · contradiction
  · contradiction
  all_goals rfl

/-! ## Views of the state -/

@[simp] theorem isLaying_iff (s : State) : s.isLaying = true ↔ s.cfg.kind = .laying := by
  simp [State.isLaying]

@[simp] theorem isNetting_iff (s : State) : s.isNetting = true ↔ s.cfg.kind = .netting := by
  simp [State.isNetting]

/-- The configuration values are read from START's block alone. -/
theorem cfg_congr {s t : State} (start : t.start = s.start) : t.cfg = s.cfg := by
  rw [State.cfg, State.cfg, start]

/-- The run position is read from the accumulator alone (R1). -/
theorem pos_congr {s t : State} (acc : t.length.acc = s.length.acc) : t.pos = s.pos := by
  rw [State.pos, State.pos, acc]

/-! ## Queuing with room (R185) -/

theorem enqueue_of_room {s : State} (b : TxBody) (room : s.ply.queue.length < s.ply.room) :
    enqueue b s = s.setPly { s.ply with queue := s.ply.queue ++ [fresh b] } := by
  simp [enqueue, room, fresh]

/-- A refresh of the slot leaves the transmit queue as it stands (R130, R186). -/
@[simp] theorem refreshPace_queue (s : State) : (refreshPace s).ply.queue = s.ply.queue := by
  unfold refreshPace; split <;> simp

/-! ## STA in READY (R152) -/

/-- GO with room: the station enters RUN, the frame is queued, and the blocks take the transition (R152). -/
theorem takeGo_of_room {s : State} (origin : Nat) (room : s.ply.queue.length < s.ply.room) :
    takeGo origin s = loadDwell (openRow (openWindow (refreshPace ((s.setStation (s.station.enter .run)).setPly
      { s.ply with queue := s.ply.queue ++ [fresh (.go origin)] })))) := by
  simp only [takeGo]
  rw [enqueue_of_room (s := s.setStation (s.station.enter .run)) _ room]
  rfl

theorem loadDwell_length (s : State) :
    (loadDwell s).length = { s.length with dwellCount := s.cfg.dwellTime * 10 } := rfl

theorem openWindow_twist (s : State) : (openWindow s).twist = if s.cfg.kind = .laying then
    { s.twist with windowOpen := true, pulses := 0, width := 0, windowStart := s.pos } else s.twist := by
  unfold openWindow
  simp only [isLaying_iff]
  split <;> rfl

theorem openRow_knot (s : State) : (openRow s).knot = if s.cfg.kind = .netting then
    { s.knot with rowOpen := true, counters := Vector.replicate 8 0, rowStart := s.pos, prevClose := none }
    else s.knot := by
  unfold openRow
  simp only [isNetting_iff]
  split <;> rfl

/-! ## The offer of a closed entry (R75 to R79) -/

/-- A closed entry offered to a map with room is inserted, forwarded, and handed off (R68, R75, R79). -/
theorem offerRaw_of_room {s : State} {e : MapEntry} (closed : e.isOpen = false)
    (room : s.map.entries.length < Config.mapCapacity) :
    offerRaw e s = (handOff { e with forwarded := true }
      (s.setMap { s.map with entries := insertEntry { e with forwarded := true } s.map.entries }),
      some { e with forwarded := true }) := by
  simp [offerRaw, weighOffer, room, placeEntry, closed]

/-- A full map refuses an evictable entry and counts it (R76). -/
theorem offerRaw_of_full {s : State} {e : MapEntry} (light : e.evictable = true)
    (full : Config.mapCapacity ≤ s.map.entries.length) : offerRaw e s = (countDropped s, none) := by
  simp only [MapEntry.evictable, Bool.and_eq_true, Bool.not_eq_true'] at light
  simp [offerRaw, weighOffer, Nat.not_lt.mpr full, light]

/-- The former has nothing to do with an inserted entry that is evictable: it is no blocker, no JOIN and no
CHANGE (R84, R89). -/
theorem entryInserted_of_evictable {e : MapEntry} (light : e.evictable = true) (f : Fire) (s : State) :
    entryInserted f e s = s := by
  simp only [MapEntry.evictable, Bool.and_eq_true, beq_iff_eq, bne_iff_ne] at light
  obtain ⟨⟨⟨-, minor⟩, notJoin⟩, notChange⟩ := light
  simp [entryInserted, MapEntry.blocker, minor, notJoin, notChange]

theorem entryInserted_of_not_forming {s : State} (plain : s.cfg.forming = false) (f : Fire) (e : MapEntry) :
    entryInserted f e s = s := by
  simp [entryInserted, State.forming, plain]

/-! ## Local points (R71, R73) -/

/-- An evictable local point with room becomes the last local entry of its kind and is handed off. -/
theorem offerPoint_of_room {s : State} {k : EntryKind} (light : (closedPoint k s.pos).evictable = true)
    (room : s.map.entries.length < Config.mapCapacity) :
    offerPoint k s = handOff (closedPoint k s.pos) (withPoint k s) := by
  have taken : offerLocal k s =
      (handOff (closedPoint k s.pos) (withPoint k s), some (closedPoint k s.pos)) := by
    have forgotten : (forgetLocal k s).map.entries.length < Config.mapCapacity := by
      simpa [forgetLocal] using room
    simp only [offerLocal, weighOffer, room, if_true]
    exact offerRaw_of_room rfl forgotten
  simp only [offerPoint, taken, entryInserted_of_evictable light]

/-- A full map refuses an evictable local point and counts it; the last local entry of its kind stays (R76). -/
theorem offerPoint_of_full {s : State} {k : EntryKind} (light : (closedPoint k s.pos).evictable = true)
    (full : Config.mapCapacity ≤ s.map.entries.length) : offerPoint k s = countDropped s := by
  have refused : offerRaw { MapEntry.offerOf k s.pos with lastLocal := true } s = (countDropped s, none) :=
    offerRaw_of_full light full
  have weighed : weighOffer { MapEntry.offerOf k s.pos with lastLocal := true } s.map.entries = .refused := by
    simp only [MapEntry.evictable, closedPoint, Bool.and_eq_true, Bool.not_eq_true'] at light
    simp [weighOffer, MapEntry.offerOf, Nat.not_lt.mpr full, light]
  simp [offerPoint, offerLocal, weighed, refused]

/-! ## The dwell (R10) -/

/-- The dwell countdown at 0: the station dwells (R10). -/
def dwells (s : State) : State := s.setLength { s.length with dwelling := true, dwellCount := 0 }

theorem beginDwell_of_run {s : State} (run : s.station.state = .run) (still : s.length.dwelling = false) :
    beginDwell s = writeDwell (dwells s) := by
  simp [beginDwell, run, still, dwells]

theorem beginDwell_ignored {s : State} (other : s.station.state ≠ .run ∨ s.length.dwelling = true) :
    beginDwell s = s := by
  rcases other with other | other <;> simp [beginDwell, other]

theorem writeDwell_merges {s : State} {e : MapEntry} (last : lastLocal .dwell s = some e)
    (here : e.position = s.pos) : writeDwell s = mergeLocal .dwell s := by
  simp [writeDwell, last, here]

theorem writeDwell_offers {s : State} (apart : ∀ e, lastLocal .dwell s = some e → e.position ≠ s.pos) :
    writeDwell s = offerPoint .dwell s := by
  cases last : lastLocal .dwell s with
  | none => simp [writeDwell, last]
  | some e => simp [writeDwell, last, apart e last]

/-! ## Offers of light entries with the former told -/

theorem offerEntry_of_room {s : State} {e : MapEntry} (light : e.evictable = true)
    (room : s.map.entries.length < Config.mapCapacity) :
    (offerEntry e s).1 = handOff { e with forwarded := true }
      (s.setMap { s.map with entries := insertEntry { e with forwarded := true } s.map.entries }) := by
  have closed : e.isOpen = false := by
    simp only [MapEntry.evictable, Bool.and_eq_true, Bool.not_eq_true'] at light
    obtain ⟨⟨⟨closed, -⟩, -⟩, -⟩ := light
    exact closed
  have stillLight : { e with forwarded := true }.evictable = true := light
  simp [offerEntry, offerRaw_of_room closed room, entryInserted_of_evictable stillLight]

theorem offerEntry_of_full {s : State} {e : MapEntry} (light : e.evictable = true)
    (full : Config.mapCapacity ≤ s.map.entries.length) : (offerEntry e s).1 = countDropped s := by
  simp [offerEntry, offerRaw_of_full light full]

/-! ## Raising a SOFT cause (R153, R161, R169) -/

@[simp] theorem reportDrop_locals (b : TxBody) (s : State) :
    (reportDrop b s).station.locals = s.station.locals := by
  unfold reportDrop; split <;> simp

@[simp] theorem enqueue_locals (b : TxBody) (s : State) :
    (enqueue b s).station.locals = s.station.locals := by
  unfold enqueue; dsimp only; (repeat' split) <;> simp

@[simp] theorem announce_locals (c : LocalCause) (s : State) :
    (announce c s).station.locals = s.station.locals := by
  unfold announce; split <;> simp

theorem announce_of_room {s : State} (c : LocalCause) (run : s.inRun = true)
    (room : s.ply.queue.length < s.ply.room) :
    announce c s = if s.station.state = .stopped then s else
      s.setPly { s.ply with queue := s.ply.queue ++ [fresh (.halt s.own c.level)] } := by
  cases state : s.station.state <;>
    simp_all [announce, enqueue_of_room, State.inRun, StationState.inRun]

@[simp] theorem changeState_queue (target : StationState) (s : State) :
    (changeState target s).ply.queue = s.ply.queue := by
  simp [changeState]

@[simp] theorem changeState_station (target : StationState) (s : State) :
    (changeState target s).station = s.station.enter target := by
  simp [changeState]

/-- Where a SOFT cause takes the station: READY stops and RUN eases (R153). -/
def Station.softened (st : Station) : Station :=
  match st.state with
  | .ready => st.enter .stopped
  | .run => if st.hardHeld then st else st.enter .easing
  | _ => st

@[simp] theorem actSoft_station (s : State) : (actSoft s).station = s.station.softened := by
  unfold actSoft Station.softened
  cases s.station.state
  case run => dsimp only; split <;> simp [ease]
  all_goals simp [stopFromReady]

@[simp] theorem Station.softened_locals (st : Station) : st.softened.locals = st.locals := by
  unfold Station.softened; (repeat' split) <;> rfl

@[simp] theorem Station.softened_peers (st : Station) : st.softened.peers = st.peers := by
  unfold Station.softened; (repeat' split) <;> rfl

@[simp] theorem Station.softened_alm (st : Station) : st.softened.alm = st.alm := by
  unfold Station.softened; (repeat' split) <;> rfl

@[simp] theorem Station.softened_firstCause (st : Station) : st.softened.firstCause = st.firstCause := by
  unfold Station.softened; (repeat' split) <;> rfl

@[simp] theorem actSoft_queue (s : State) : (actSoft s).ply.queue = s.ply.queue := by
  unfold actSoft; (repeat' split) <;> simp [stopFromReady, ease]

theorem clearDwell_length (s : State) : (clearDwell s).length = { s.length with dwelling := false } := by
  unfold clearDwell
  split
  · simp
  · rename_i still
    rw [← Bool.eq_false_of_not_eq_true still]

/-- A SOFT cause may end a dwell; of length metering nothing else changes. -/
theorem actSoft_length (s : State) :
    (actSoft s).length = s.length ∨ (actSoft s).length = { s.length with dwelling := false } := by
  unfold actSoft; (repeat' split) <;> simp [stopFromReady, ease, clearDwell_length]

theorem raiseSoft_of_new {s : State} {c : LocalCause} (run : s.inRun = true) (new : c ∉ s.station.locals) :
    raiseSoft c s = actSoft (announce c (s.setStation (s.station.takeLocal s.own c))) := by
  simp [raiseSoft, run, new]

theorem raiseSoft_ignored {s : State} {c : LocalCause} (idle : s.inRun = false ∨ c ∈ s.station.locals) :
    raiseSoft c s = s := by
  rcases idle with idle | held
  · simp [raiseSoft, idle]
  · simp [raiseSoft, held]

theorem raiseSoft_length (c : LocalCause) (s : State) :
    (raiseSoft c s).length = s.length ∨ (raiseSoft c s).length = { s.length with dwelling := false } := by
  unfold raiseSoft
  split
  · simpa using actSoft_length (announce c (s.setStation (s.station.takeLocal s.own c)))
  · exact .inl rfl

/-- A SOFT cause raised while a run exists is held afterwards, whether it was or not (R161). -/
theorem mem_locals_raiseSoft {s : State} (c : LocalCause) (run : s.inRun = true) :
    c ∈ (raiseSoft c s).station.locals := by
  by_cases held : c ∈ s.station.locals
  · rwa [raiseSoft_ignored (.inr held)]
  · simp [raiseSoft_of_new run held, Station.takeLocal]

theorem LocalCause.level_soft {c : LocalCause} (notBrk : c ≠ .brk) (notStop : c ≠ .localStop) :
    c.level = .soft := by
  cases c <;> simp_all [LocalCause.level]

theorem Station.hardHeld_takeLocal {c : LocalCause} (soft : c.level = .soft) (own : Nat) (st : Station) :
    (st.takeLocal own c).hardHeld = st.hardHeld := by
  have light : (Level.soft == Level.hard) = false := rfl
  simp [Station.hardHeld, Station.takeLocal, Station.noteTaken, soft, light]

/-- While a lawful station runs it holds no HARD cause (R159). -/
theorem hardHeld_of_run {s : State} (lawful : StationLawful s) (run : s.station.state = .run) :
    s.station.hardHeld = false := by
  obtain ⟨-, ⟨den, hard⟩, -⟩ := lawful
  by_contra held
  simp [run, StationState.driven, hard (by simpa using held)] at den

/-- The station state after a SOFT cause on a lawful station: RUN eases, READY stops (R153). -/
theorem softened_state {s : State} {c : LocalCause} (soft : c.level = .soft) (lawful : StationLawful s) :
    (s.station.takeLocal s.own c).softened.state = match s.station.state with
      | .run => .easing
      | .ready => .stopped
      | other => other := by
  have noted : (s.station.takeLocal s.own c).state = s.station.state := rfl
  cases state : s.station.state
  case run =>
    have driving : (s.station.takeLocal s.own c).hardHeld = false :=
      (Station.hardHeld_takeLocal soft _ _).trans (hardHeld_of_run lawful state)
    simp [Station.softened, Station.enter, noted, state, driving]
  all_goals simp [Station.softened, Station.enter, noted, state]

section NewCause

variable {s : State} {c : LocalCause} (run : s.inRun = true) (new : c ∉ s.station.locals)
  (room : s.ply.queue.length < s.ply.room)
include run new room

/-- A new SOFT cause with room in the queue enters the set, is announced by HALT unless the station stands
STOPPED, and acts on the station state (R153, R161, R169). -/
theorem raiseSoft_of_room :
    raiseSoft c s = actSoft ((s.setStation (s.station.takeLocal s.own c)).setPly { s.ply with
      queue := if s.station.state = .stopped then s.ply.queue
        else s.ply.queue ++ [fresh (.halt s.own c.level)] }) := by
  rw [raiseSoft_of_new run new,
    announce_of_room (s := s.setStation (s.station.takeLocal s.own c)) c run room]
  have noted : (s.station.takeLocal s.own c).state = s.station.state := rfl
  simp only [State.setStation_station, noted]
  split <;> rfl

theorem raiseSoft_station : (raiseSoft c s).station = (s.station.takeLocal s.own c).softened := by
  simp [raiseSoft_of_room run new room]

theorem raiseSoft_locals : (raiseSoft c s).station.locals = s.station.locals ++ [c] := by
  simp [raiseSoft_station run new room, Station.takeLocal]

theorem raiseSoft_peers : (raiseSoft c s).station.peers = s.station.peers := by
  simp [raiseSoft_station run new room, Station.takeLocal, Station.noteTaken]

theorem raiseSoft_alm : (raiseSoft c s).station.alm = true := by
  simp [raiseSoft_station run new room, Station.takeLocal, Station.noteTaken]

theorem raiseSoft_firstCause : (raiseSoft c s).station.firstCause =
    if s.station.setEmpty then some ⟨.loc c, s.own⟩ else s.station.firstCause := by
  simp [raiseSoft_station run new room, Station.takeLocal, Station.noteTaken]

theorem raiseSoft_queue : (raiseSoft c s).ply.queue =
    if s.station.state = .stopped then s.ply.queue else s.ply.queue ++ [fresh (.halt s.own c.level)] := by
  simp [raiseSoft_of_room run new room]

theorem raiseSoft_former : (raiseSoft c s).former = s.former := by
  simp [raiseSoft_of_room run new room]

end NewCause

end Sys2Proof.Machine
end

section
/-!
PROOF. The pending arrivals: the order of the list, and that every part of a pulse but their own leaves them as
they stand.
-/

namespace Sys2Proof.Machine

open Sys2Proof.Safety

/-! ## The pending arrivals stand as they were at every part of a pulse but their own (R140, R141) -/

@[simp] theorem refreshPace_arrivals (s : State) : (refreshPace s).pace.arrivals = s.pace.arrivals := by
  unfold refreshPace; split <;> simp
@[simp] theorem changeState_arrivals (t : StationState) (s : State) :
    (changeState t s).pace.arrivals = s.pace.arrivals := by
  simp [changeState]
@[simp] theorem actSoft_arrivals (s : State) : (actSoft s).pace.arrivals = s.pace.arrivals := by
  unfold actSoft; (repeat' split) <;> simp [stopFromReady, ease]
@[simp] theorem raiseSoft_arrivals (c : LocalCause) (s : State) :
    (raiseSoft c s).pace.arrivals = s.pace.arrivals := by
  unfold raiseSoft; split <;> simp
@[simp] theorem offerRaw_arrivals (e : MapEntry) (s : State) :
    (offerRaw e s).1.pace.arrivals = s.pace.arrivals := by
  unfold offerRaw; dsimp only; split <;> simp
@[simp] theorem switchBank_arrivals (k p : Nat) (s : State) :
    (switchBank k p s).1.pace.arrivals = s.pace.arrivals := by
  unfold switchBank; dsimp only; split <;> simp
@[simp] theorem switchStaged_arrivals (p : Nat) (s : State) :
    (switchStaged p s).1.pace.arrivals = s.pace.arrivals := by
  unfold switchStaged; split <;> simp

section Fires

variable {f : Fire} (keeps : ∀ c k x s, (f c k x s).pace.arrivals = s.pace.arrivals)
include keeps

theorem placeCut_arrivals (c : Cut) (x : Nat) (s : State) :
    (placeCut f c x s).pace.arrivals = s.pace.arrivals := by
  unfold placeCut; (repeat' split) <;> simp [keeps]
theorem moveCut_arrivals (c : Cut) (rest : List Cut) (s : State) :
    (moveCut f c rest s).pace.arrivals = s.pace.arrivals := by
  unfold moveCut; split <;> simp [keeps]
theorem cutOut_arrivals (e : MapEntry) (d : Bool) (s : State) :
    (cutOut f e d s).1.pace.arrivals = s.pace.arrivals := by
  unfold cutOut; dsimp only; (repeat' split) <;> simp [placeCut_arrivals keeps]
theorem planIfDue_arrivals (s : State) : (planIfDue f s).pace.arrivals = s.pace.arrivals := by
  unfold planIfDue; dsimp only
  (repeat' split) <;> simp [placeCut_arrivals keeps, cutOut_arrivals keeps]
theorem checkPlan_arrivals (s : State) : (checkPlan f s).pace.arrivals = s.pace.arrivals := by
  unfold checkPlan; dsimp only
  (repeat' split) <;> simp [moveCut_arrivals keeps, cutOut_arrivals keeps]
theorem retype_arrivals (s : State) : (retype f s).pace.arrivals = s.pace.arrivals := by
  unfold retype; dsimp only; (repeat' split) <;> simp [planIfDue_arrivals keeps]
theorem joinLimit_arrivals (e : MapEntry) (s : State) :
    (joinLimit f e s).1.pace.arrivals = s.pace.arrivals := by
  unfold joinLimit; dsimp only
  (repeat' split) <;> simp [placeCut_arrivals keeps, cutOut_arrivals keeps]
theorem changeCut_arrivals (e : MapEntry) (s : State) :
    (changeCut f e s).pace.arrivals = s.pace.arrivals := by
  unfold changeCut; dsimp only; (repeat' split) <;> simp [placeCut_arrivals keeps]
theorem entryInserted_arrivals (e : MapEntry) (s : State) :
    (entryInserted f e s).pace.arrivals = s.pace.arrivals := by
  unfold entryInserted; dsimp only
  (repeat' split) <;> simp [cutOut_arrivals keeps, checkPlan_arrivals keeps, joinLimit_arrivals keeps,
    changeCut_arrivals keeps]
theorem entryUpgraded_arrivals (e : MapEntry) (s : State) :
    (entryUpgraded f e s).pace.arrivals = s.pace.arrivals := by
  unfold entryUpgraded; (repeat' split) <;> simp [cutOut_arrivals keeps, checkPlan_arrivals keeps]
theorem releaseCut_arrivals (n : Nat) (s : State) : (releaseCut f n s).pace.arrivals = s.pace.arrivals := by
  unfold releaseCut; (repeat' split) <;> simp [moveCut_arrivals keeps]
theorem entryClosed_arrivals (s : State) (e : MapEntry) :
    (entryClosed f s e).pace.arrivals = s.pace.arrivals := by
  unfold entryClosed; split <;> simp [checkPlan_arrivals keeps, releaseCut_arrivals keeps]

end Fires

theorem fireCut_arrivals (n : Nat) (c : Cut) (k x : Nat) (s : State) :
    (fireCut n c k x s).pace.arrivals = s.pace.arrivals := by
  induction n generalizing c k x s with
  | zero => rfl
  | succ n ih =>
    unfold fireCut
    split
    · rfl
    · split
      · exact retype_arrivals ih s
      · dsimp only
        rw [foldl_keeps (fun s => s.pace.arrivals) _ (fun s e => entryClosed_arrivals ih s e)]
        split <;> simp [planIfDue_arrivals ih]

@[simp] theorem fire_arrivals (c : Cut) (k x : Nat) (s : State) :
    (fire c k x s).pace.arrivals = s.pace.arrivals := fireCut_arrivals _ c k x s

@[simp] theorem fireDue_arrivals (n : Nat) (s : State) : (fireDue n s).pace.arrivals = s.pace.arrivals := by
  induction n generalizing s with
  | zero => rfl
  | succ n ih => unfold fireDue; split <;> simp [ih]

@[simp] theorem formerPulse_arrivals (s : State) : (formerPulse s).pace.arrivals = s.pace.arrivals := by
  unfold formerPulse; split <;> simp [planIfDue_arrivals fire_arrivals]
@[simp] theorem offerEntry_arrivals (e : MapEntry) (s : State) :
    (offerEntry e s).1.pace.arrivals = s.pace.arrivals := by
  unfold offerEntry; dsimp only; split <;> simp [entryInserted_arrivals fire_arrivals]
@[simp] theorem tell_arrivals (s : State) (h : Handover) : (tell s h).pace.arrivals = s.pace.arrivals := by
  unfold tell
  split <;> simp [entryInserted_arrivals fire_arrivals, entryUpgraded_arrivals fire_arrivals,
    entryClosed_arrivals fire_arrivals]
@[simp] theorem tellAll_arrivals (l : List Handover) (s : State) :
    (tellAll l s).pace.arrivals = s.pace.arrivals :=
  foldl_keeps (fun s => s.pace.arrivals) _ tell_arrivals l s
@[simp] theorem twistRunStep_arrivals (c : WindowClass) (s : State) :
    (twistRunStep c s).1.pace.arrivals = s.pace.arrivals := by
  unfold twistRunStep runAtMap; dsimp only; (repeat' split) <;> simp
@[simp] theorem closeWindow_arrivals (r : Bool) (s : State) :
    (closeWindow r s).pace.arrivals = s.pace.arrivals := by
  unfold closeWindow; dsimp only; (repeat' split) <;> simp
@[simp] theorem twistPulse_arrivals (n : Nat) (r : Bool) (s : State) :
    (twistPulse n r s).pace.arrivals = s.pace.arrivals := by
  unfold twistPulse; dsimp only; (repeat' split) <;> simp
@[simp] theorem offerArrival_arrivals (s : State) (a : Arrival) :
    (offerArrival s a).pace.arrivals = s.pace.arrivals := by
  unfold offerArrival; split <;> simp
@[simp] theorem closeSpan_arrivals (s : State) : (closeSpan s).pace.arrivals = s.pace.arrivals := by
  unfold closeSpan; dsimp only; (repeat' split) <;> simp
@[simp] theorem slipPulse_arrivals (n : Nat) (s : State) : (slipPulse n s).pace.arrivals = s.pace.arrivals := by
  unfold slipPulse; dsimp only; (repeat' split) <;> simp
@[simp] theorem dwellPulse_arrivals (s : State) : (dwellPulse s).pace.arrivals = s.pace.arrivals := by
  unfold dwellPulse; split <;> simp
@[simp] theorem advance_arrivals (n : Nat) (s : State) : (advance n s).pace.arrivals = s.pace.arrivals := by
  unfold advance; dsimp only; split <;> simp

/-! ## The order of the pending arrivals (R140) -/

theorem Arrival.before_iff (a b : Arrival) : a.before b = true ↔
    a.remaining < b.remaining ∨ (a.remaining = b.remaining ∧ a.accepted ≤ b.accepted) := by
  simp [Arrival.before]

theorem insertArrival_sorted (a : Arrival) (l : List Arrival)
    (sorted : l.Pairwise (fun x y => x.before y = true)) :
    (insertArrival a l).Pairwise (fun x y => x.before y = true) := by
  induction l with
  | nil => simp [insertArrival]
  | cons x xs ih =>
    obtain ⟨low, rest⟩ := List.pairwise_cons.mp sorted
    simp only [insertArrival]
    split <;> rename_i place
    · refine List.pairwise_cons.mpr ⟨fun y member => ?_, ih rest⟩
      rcases List.mem_cons.mp ((insertArrival_perm a xs).mem_iff.mp member) with rfl | old
      · exact place
      · exact low y old
    · refine List.pairwise_cons.mpr ⟨fun y member => ?_, sorted⟩
      have above : x = y ∨ x.before y = true := (List.mem_cons.mp member).imp Eq.symm (low y)
      simp only [Arrival.before_iff] at place above ⊢
      rcases above with rfl | above <;> omega

theorem sortArrivals_sorted (l : List Arrival) :
    (sortArrivals l).Pairwise (fun x y => x.before y = true) := by
  induction l with
  | nil => exact .nil
  | cons a l ih => exact insertArrival_sorted a _ ih

/-- After their part of a pulse the records still on their way are left, in the list's order (R140 to R142). -/
theorem arrivalsPulse_arrivals (step : Nat) (s : State) :
    (arrivalsPulse step s).pace.arrivals =
      (reduceArrivals step s).filter (fun a => decide (0 < a.remaining)) := by
  simp only [arrivalsPulse]
  rw [foldl_keeps (fun s => s.pace.arrivals) _ offerArrival_arrivals]
  rfl

end Sys2Proof.Machine
end

section
/-!
PROOF. A pulse of the active source, block by block, and the close of a check span.
-/

namespace Sys2Proof.Machine

open Sys2Proof.Safety

/-! ## A pulse block by block (R1 to R3) -/

/-- Outside a run a pulse changes nothing. -/
theorem activePulse_outside {s : State} (idle : s.inRun = false) : activePulse s = s := by
  simp [activePulse, idle]

@[simp] theorem dwellPulse_start (s : State) : (dwellPulse s).start = s.start := calm_start.dwellPulse s

@[simp] theorem advance_start (step : Nat) (s : State) : (advance step s).start = s.start := by
  unfold advance; dsimp only; split <;> simp

/-- On a PLAIN station that forms no packages neither twist regulation nor the former takes the pulse. -/
theorem activePulse_of_plain {s : State} (kind : s.cfg.kind = .plain) (forming : s.cfg.forming = false)
    (run : s.inRun = true) :
    activePulse s = slipPulse s.activeStep (arrivalsPulse s.activeStep (testMark (retain s.pos
      (advance s.activeStep (dwellPulse s))))) := by
  have start : (retain s.pos (advance s.activeStep (dwellPulse s))).start = s.start := by
    simp
  have notLaying : (retain s.pos (advance s.activeStep (dwellPulse s))).isLaying = false := by
    simp [State.isLaying, cfg_congr start, kind]
  have notForming : (retain s.pos (advance s.activeStep (dwellPulse s))).forming = false := by
    simp [State.forming, cfg_congr start, forming]
  simp [activePulse, run, twistPulse, formerPulse, notLaying, notForming]

theorem clearDwell_of_still {s : State} (still : s.length.dwelling = false) : clearDwell s = s := by
  simp [clearDwell, still]

theorem clearDwell_of_dwelling {s : State} (dwelling : s.length.dwelling = true) :
    clearDwell s =
      (s.setLength { s.length with dwelling := false }).setKnot { s.knot with prevClose := none } := by
  simp [clearDwell, dwelling]

/-- The end of a dwell and one step of the accumulator make `movedByPulse` (R1, R9, R11, R61). -/
theorem movedByPulse_eq (s : State) :
    movedByPulse s = (dwellPulse s).setLength { (dwellPulse s).length with acc := accAfterPulse s } := by
  by_cases run : s.station.state = .run
  · simp only [movedByPulse, dwellPulse, run, if_true]
    cases dwelling : s.length.dwelling
    · rw [clearDwell_of_still dwelling]
      simp [loadDwell, State.setLength, dwelling]
    · rw [clearDwell_of_dwelling dwelling]
      simp [loadDwell, State.setLength, State.setKnot, State.cfg]
  · simp [movedByPulse, dwellPulse, run, State.setLength]

/-- The position moves by one step; its crossing of 4,000,000,000 mm raises RUN_LIMIT (R1, R2). -/
theorem advance_dwellPulse (s : State) :
    advance s.activeStep (dwellPulse s) =
      if withinRunLimit s then movedByPulse s else raiseSoft .runLimit (movedByPulse s) := by
  have acc : (dwellPulse s).length.acc = s.length.acc := calm_acc.dwellPulse s
  have here : (dwellPulse s).pos = s.pos := pos_congr acc
  have there : (movedByPulse s).pos = accAfterPulse s / 1000 := by rw [movedByPulse_eq]; rfl
  have moved : (dwellPulse s).setLength { (dwellPulse s).length with
      acc := min Config.accMax ((dwellPulse s).length.acc + s.activeStep) } = movedByPulse s := by
    rw [movedByPulse_eq, acc]; rfl
  simp only [advance, moved, here, there]
  have crossing :
      s.pos < Config.runLimit ∧ Config.runLimit ≤ accAfterPulse s / 1000 ↔ ¬ withinRunLimit s := by
    simp only [Config.runLimit]; omega
  split <;> rename_i crossed
  · rw [if_neg (crossing.mp crossed)]
  · rw [if_pos (not_not.mp (crossing.not.mp crossed))]

@[simp] theorem movedByPulse_start (s : State) : (movedByPulse s).start = s.start := by
  unfold movedByPulse; split <;> rfl
@[simp] theorem movedByPulse_station (s : State) : (movedByPulse s).station = s.station := by
  unfold movedByPulse; split <;> rfl
@[simp] theorem movedByPulse_acc (s : State) : (movedByPulse s).length.acc = accAfterPulse s := by
  unfold movedByPulse; split <;> rfl
@[simp] theorem movedByPulse_source (s : State) : (movedByPulse s).length.source = s.length.source := by
  unfold movedByPulse; split <;> rfl
@[simp] theorem movedByPulse_la (s : State) : (movedByPulse s).length.la = s.length.la := by
  unfold movedByPulse; split <;> rfl
@[simp] theorem movedByPulse_lb (s : State) : (movedByPulse s).length.lb = s.length.lb := by
  unfold movedByPulse; split <;> rfl
@[simp] theorem movedByPulse_marks (s : State) : (movedByPulse s).marks = s.marks := by
  unfold movedByPulse; split <;> rfl
@[simp] theorem movedByPulse_twist (s : State) : (movedByPulse s).twist = s.twist := by
  unfold movedByPulse; split <;> rfl
@[simp] theorem movedByPulse_map (s : State) : (movedByPulse s).map = s.map := by
  unfold movedByPulse; split <;> rfl
@[simp] theorem movedByPulse_former (s : State) : (movedByPulse s).former = s.former := by
  unfold movedByPulse; split <;> rfl
@[simp] theorem movedByPulse_banks (s : State) : (movedByPulse s).banks = s.banks := by
  unfold movedByPulse; split <;> rfl
@[simp] theorem movedByPulse_pace (s : State) : (movedByPulse s).pace = s.pace := by
  unfold movedByPulse; split <;> rfl
@[simp] theorem movedByPulse_ply (s : State) : (movedByPulse s).ply = s.ply := by
  unfold movedByPulse; split <;> rfl

/-! ## Retention and marks (R12 to R14, R82) -/

theorem retain_of_plain {s : State} (forming : s.cfg.forming = false) (before : Nat) :
    retain before s = s.setMap { s.map with
      entries := if Config.posMax ≤ before then s.map.entries
        else s.map.entries.filter (fun e => e.isOpen || decide (s.pos ≤ e.endPos + s.cfg.retention)) } := by
  unfold retain
  simp only [State.forming, forming, Bool.false_or, decide_eq_true_eq]
  split <;> rfl

/-- The 20 bits of a mark, digit by digit from the most significant (R14). -/
theorem markBits_eq (n : Nat) :
    markBits n = (List.range 20).map fun i => (n / 10 ^ (4 - i / 4) % 10).testBit (3 - i % 4) := by
  have bit (d i : Nat) : d.testBit i = (d / 2 ^ i % 2 == 1) := by
    rw [Nat.testBit_eq_decide_div_mod_eq, beq_eq_decide]
  simp [markBits, markDigits, digitBits, List.range_succ, bit]

/-- The last bit of a mark is the lowest of its last digit. -/
theorem markBits_getLastD (n : Nat) : (markBits n).getLastD false = (n % 10).testBit 0 := by
  simp [markBits_eq, List.range_succ]

theorem testMarkAt_eq (len : Nat) (s : State) : testMarkAt len s = s.setMarks (marksAt len s.marks) := by
  unfold testMarkAt marksAt
  cases next : s.marks.next with
  | none => rfl
  | some point =>
    by_cases due : point ≤ len
    · simp only [due, if_true, Nat.not_lt.mpr due, if_false, Marks.fallDue, markBits_getLastD]
      simp only [markBits_eq]
      cases s.marks.printer <;> rfl
    · simp only [due, if_false, Nat.not_le.mp due, if_true]
      rfl

theorem testMark_of_plain {s : State} (forming : s.cfg.forming = false) :
    testMark s = s.setMarks (marksAt s.pos s.marks) := by
  simp [testMark, countedLength, State.forming, forming, testMarkAt_eq]

/-- The state once position, retention and marks have taken the pulse. -/
def measuredByPulse (s : State) : State :=
  { movedByPulse s with
    marks := marksAt (accAfterPulse s / 1000) s.marks, map := { s.map with entries := keptByPulse s } }

theorem testMark_retain_movedByPulse {s : State} (forming : s.cfg.forming = false) :
    testMark (retain s.pos (movedByPulse s)) = measuredByPulse s := by
  have cfg : (movedByPulse s).cfg = s.cfg := cfg_congr (by simp)
  have pos : (movedByPulse s).pos = accAfterPulse s / 1000 := by simp [State.pos]
  have kept : retain s.pos (movedByPulse s) =
      (movedByPulse s).setMap { s.map with entries := keptByPulse s } := by
    rw [retain_of_plain (by rw [cfg, forming])]
    simp only [movedByPulse_map, pos, cfg]
    rfl
  rw [kept, testMark_of_plain (s := (movedByPulse s).setMap _) (by rw [← forming, ← cfg]; rfl)]
  simp only [measuredByPulse, State.setMap_marks, movedByPulse_marks, ← pos]
  rfl

/-! ## Pending arrivals at a pulse (R140 to R142) -/

theorem arrivalsPulse_of_none {s : State} (none : s.pace.arrivals = []) (step : Nat) :
    arrivalsPulse step s = s := by
  have same : s.setPace { s.pace with arrivals := [] } = s := by rw [← none]; rfl
  simpa [arrivalsPulse, reduceArrivals, none, sortArrivals] using same

/-- One pending arrival comes nearer, or leaves the list and is offered (R141, R142). -/
theorem arrivalsPulse_of_one {s : State} {a : Arrival} (one : s.pace.arrivals = [a]) (step : Nat) :
    let b := { a with remaining := a.remaining - (step * takeUpOf a.feeder s / 1000 : Nat) }
    arrivalsPulse step s =
      if 0 < b.remaining then s.setPace { s.pace with arrivals := [b] }
      else offerArrival (s.setPace { s.pace with arrivals := [] }) b := by
  intro b
  have reduced : reduceArrivals step s = [b] := by simp [reduceArrivals, one, sortArrivals, insertArrival, b]
  by_cases ahead : 0 < b.remaining
  · simp [arrivalsPulse, reduced, ahead, not_le.mpr ahead]
  · simp [arrivalsPulse, reduced, ahead, not_lt.mp ahead]

theorem offerArrival_of_own {s : State} {a : Arrival} (own : a.origin = s.own) :
    offerArrival s a = countDropped s := by
  simp [offerArrival, own]

/-- An arrived record on a station that forms no packages, with room in the map (R74, R142). -/
theorem offerArrival_of_room {s : State} {a : Arrival} (forming : s.cfg.forming = false)
    (other : a.origin ≠ s.own) (room : s.map.entries.length < Config.mapCapacity) :
    offerArrival s a = handOff (arrivedEntry s.pos s a)
      (s.setMap { s.map with entries := insertEntry (arrivedEntry s.pos s a) s.map.entries }) := by
  have still (t : State) (start : t.start = s.start) (f : Fire) (e : MapEntry) : entryInserted f e t = t :=
    entryInserted_of_not_forming (by rw [cfg_congr start, forming]) f e
  simp only [offerArrival, other, if_false, offerEntry]
  rw [offerRaw_of_room rfl room]
  exact still _ (by simp) _ _

/-! ## The slip check at a pulse (R4, R5) -/

theorem slipPulse_of_no_check {s : State} (off : s.cfg.stepB = 0) (step : Nat) : slipPulse step s = s := by
  simp [slipPulse, off]

/-! ## Pulses of a PLAIN station below the run limit -/

@[simp] theorem measuredByPulse_start (s : State) : (measuredByPulse s).start = s.start := by
  simp [measuredByPulse]
@[simp] theorem measuredByPulse_acc (s : State) : (measuredByPulse s).length.acc = accAfterPulse s := by
  simp [measuredByPulse]
@[simp] theorem measuredByPulse_pace (s : State) : (measuredByPulse s).pace = s.pace := by
  simp [measuredByPulse]

theorem activePulse_measured {s : State} (kind : s.cfg.kind = .plain) (forming : s.cfg.forming = false)
    (run : s.inRun = true) (within : withinRunLimit s) :
    activePulse s = slipPulse s.activeStep (arrivalsPulse s.activeStep (measuredByPulse s)) := by
  rw [activePulse_of_plain kind forming run, advance_dwellPulse, if_pos within,
    testMark_retain_movedByPulse forming]

/-- With no mark due and nothing in the map, a pulse but moves the position. -/
theorem measuredByPulse_of_quiet {s : State} (unmarked : s.marks.next = none) (clear : s.map.entries = []) :
    measuredByPulse s = movedByPulse s := by
  have marks : marksAt (accAfterPulse s / 1000) s.marks = (movedByPulse s).marks := by simp [marksAt, unmarked]
  have map : { s.map with entries := keptByPulse s } = (movedByPulse s).map := by
    rw [movedByPulse_map, keptByPulse, clear, List.filter_nil, ite_self, ← clear]
  rw [measuredByPulse, marks, map]

/-- Without a check source the pulse of a PLAIN station ends with the pending arrivals. -/
theorem activePulse_of_unchecked {s : State} (plain : Plain s) (run : s.inRun = true)
    (within : withinRunLimit s) :
    activePulse s = arrivalsPulse s.activeStep (measuredByPulse s) := by
  obtain ⟨kind, forming, off⟩ := plain
  have start : (arrivalsPulse s.activeStep (measuredByPulse s)).start = s.start :=
    (calm_start.arrivalsPulse _ _).trans (measuredByPulse_start s)
  rw [activePulse_measured kind forming run within, slipPulse_of_no_check (by rw [cfg_congr start, off])]

theorem arrivalsPulse_measured_of_none {s : State} (none : s.pace.arrivals = []) :
    arrivalsPulse s.activeStep (measuredByPulse s) = measuredByPulse s :=
  arrivalsPulse_of_none (by rw [measuredByPulse_pace, none]) _

/-- The single pending arrival after the pulse: nearer, or offered at the new position (R141, R142). -/
theorem arrivalsPulse_measured_of_one {s : State} {a : Arrival} (one : s.pace.arrivals = [a]) :
    arrivalsPulse s.activeStep (measuredByPulse s) =
      if 0 < (nearer s a).remaining then (measuredByPulse s).setPace { s.pace with arrivals := [nearer s a] }
      else offerArrival ((measuredByPulse s).setPace { s.pace with arrivals := [] }) (nearer s a) := by
  have takeUp : takeUpOf a.feeder (measuredByPulse s) = feederTakeUp a.feeder s := by
    rw [takeUpOf, State.peerOf, measuredByPulse_pace]; rfl
  rw [arrivalsPulse_of_one (s := measuredByPulse s) (by rw [measuredByPulse_pace, one]), takeUp,
    measuredByPulse_pace]
  rfl

/-- Settles O10: the pulse is `measuredByPulse` followed by the pending arrivals' part. -/
theorem activePulseOnAQuietOrPlainStation : Obligations.ActivePulseOnAQuietOrPlainStation := by
  intro s run within moved now kept measured
  refine ⟨?quiet, ?empty, ?one⟩
  case quiet =>
    rintro ⟨kind, forming, off, unmarked, clear, none⟩
    rw [exec_activeSourcePulse, activePulse_of_unchecked ⟨kind, forming, off⟩ run within,
      arrivalsPulse_measured_of_none none, measuredByPulse_of_quiet unmarked clear]
  case empty =>
    intro plain none
    rw [exec_activeSourcePulse, activePulse_of_unchecked plain run within, arrivalsPulse_measured_of_none none]
    rfl
  case one =>
    intro a plain one
    have ⟨_, forming, _⟩ := plain
    rw [exec_activeSourcePulse, activePulse_of_unchecked plain run within, arrivalsPulse_measured_of_one one]
    set left := (measuredByPulse s).setPace { s.pace with arrivals := [] } with left_eq
    have start : left.start = s.start := measuredByPulse_start s
    have own : left.own = s.own := by rw [State.own, start, State.own]
    have here : left.pos = now := by rw [State.pos, left_eq, State.setPace_length, measuredByPulse_acc]
    refine ⟨fun ahead => ?nearer, fun arrives ours => ?refused, fun arrives other room => ?inserted⟩
    case nearer => rw [if_pos ahead]; rfl
    case refused =>
      rw [if_neg (not_lt.mpr arrives), offerArrival_of_own (a := nearer s a) (ours.trans own.symm)]
      rfl
    case inserted =>
      have entry : arrivedEntry left.pos left (nearer s a) = arrivedEntry now s a := by
        rw [here]; rfl
      rw [if_neg (not_lt.mpr arrives), offerArrival_of_room (by rw [cfg_congr start, forming])
        (own ▸ other) room, entry]
      rfl

/-! ## The close of a span (R5, R6, R8) -/

/-- The greatest slip of a good span: the tolerance in A mode, twice it in B mode (R5). -/
def slipLimit (s : State) : Nat :=
  match s.length.source with
  | .a => s.cfg.slipTol
  | .b => 2 * s.cfg.slipTol

/-- Length metering with the span's slip stored and both accumulators started again (R5). -/
def Length.spanClosed (badSpans : Nat) (l : Length) : Length :=
  { l with lastSlip := slipOf l.la l.lb, la := 0, lb := 0, badSpans }

/-- A span close in the model's own terms, its limit named. -/
theorem closeSpan_eq (s : State) :
    closeSpan s =
      let bad := if slipLimit s < slipOf s.length.la s.length.lb then s.length.badSpans + 1 else 0
      if slipLimit s < slipOf s.length.la s.length.lb ∧ s.cfg.slipPersist ≤ bad then
        match s.length.source with
        | .a => (offerEntry (.offerOf .slip s.pos) (s.setLength
            { s.length.spanClosed 0 with source := .b, switched := true, degraded := true })).1
        | .b => raiseSoft .slipLost (s.setLength (s.length.spanClosed 0))
      else s.setLength (s.length.spanClosed bad) := by
  rfl

theorem closeSpan_good {s : State} (good : ¬ slipLimit s < slipOf s.length.la s.length.lb) :
    closeSpan s = s.setLength (s.length.spanClosed 0) := by
  simp [closeSpan_eq, good]

theorem closeSpan_counts {s : State} (bad : slipLimit s < slipOf s.length.la s.length.lb)
    (few : s.length.badSpans + 1 < s.cfg.slipPersist) :
    closeSpan s = s.setLength (s.length.spanClosed (s.length.badSpans + 1)) := by
  simp [closeSpan_eq, bad, not_le.mpr few]

theorem closeSpan_switches {s : State} (bad : slipLimit s < slipOf s.length.la s.length.lb)
    (many : s.cfg.slipPersist ≤ s.length.badSpans + 1) (source : s.length.source = .a) :
    closeSpan s = (offerEntry (.offerOf .slip s.pos) (s.setLength
      { s.length.spanClosed 0 with source := .b, switched := true, degraded := true })).1 := by
  simp [closeSpan_eq, bad, many, source]

theorem closeSpan_loses {s : State} (bad : slipLimit s < slipOf s.length.la s.length.lb)
    (many : s.cfg.slipPersist ≤ s.length.badSpans + 1) (source : s.length.source = .b) :
    closeSpan s = raiseSoft .slipLost (s.setLength (s.length.spanClosed 0)) := by
  simp [closeSpan_eq, bad, many, source]

/-- SLIP_LOST as the close of a span raises it: the cause is held, the stored results stand (R8). -/
theorem raiseSoft_spanClosed {s : State} (run : s.inRun = true) :
    let t := raiseSoft .slipLost (s.setLength (s.length.spanClosed 0))
    .slipLost ∈ t.station.locals ∧ t.length.badSpans = 0 ∧ t.length.la = 0 ∧ t.length.lb = 0 ∧
      t.length.lastSlip = slipOf s.length.la s.length.lb ∧ t.length.source = s.length.source ∧
      t.map = s.map := by
  intro t
  have held : .slipLost ∈ t.station.locals := mem_locals_raiseSoft .slipLost run
  have map : t.map = s.map := raiseSoft_map _ _
  rcases raiseSoft_length .slipLost (s.setLength (s.length.spanClosed 0)) with length | length <;>
    exact ⟨held, by rw [length]; rfl, by rw [length]; rfl, by rw [length]; rfl, by rw [length]; rfl,
      by rw [length]; rfl, map⟩

/-! ## A pulse at the slip check (R4, R5) -/

/-- The step of a source's pulse grows its span, which closes when it reaches the slip span (R4, R5). -/
theorem slipPulse_of_check {s : State} (on : s.cfg.stepB ≠ 0) (step : Nat) :
    slipPulse step s =
      if s.cfg.slipSpan * 1000 ≤ (s.length.addSpan s.length.source step).activeSpan
      then closeSpan (s.setLength (s.length.addSpan s.length.source step))
      else s.setLength (s.length.addSpan s.length.source step) := by
  rw [slipPulse, if_neg on]
  rfl

/-- A span grown by the active source's step, accumulator by accumulator. -/
theorem addSpan_activeStep (s : State) (l : Length) :
    l.addSpan s.length.source s.activeStep = { l with
      la := if s.length.source = .a then l.la + s.cfg.stepA else l.la
      lb := if s.length.source = .b then l.lb + s.cfg.stepB else l.lb } := by
  cases source : s.length.source <;> simp [Length.addSpan, State.activeStep, source]

theorem Length.activeSpan_eq (l : Length) : l.activeSpan = if l.source = .a then l.la else l.lb := by
  cases source : l.source <;> simp [Length.activeSpan, source]

/-- The measured length once the active source's span has grown. -/
theorem addSpan_measuredByPulse (s : State) :
    (measuredByPulse s).length.addSpan s.length.source s.activeStep = { (movedByPulse s).length with
      la := if s.length.source = .a then s.length.la + s.cfg.stepA else s.length.la
      lb := if s.length.source = .b then s.length.lb + s.cfg.stepB else s.length.lb } := by
  rw [addSpan_activeStep]
  simp only [measuredByPulse, movedByPulse_la, movedByPulse_lb]

/-- Settles O12: a pulse grows the span (`slipPulse_of_check`), and a close is one of four cases. -/
theorem spanCloseStoresTheSlipAndSwitchesTheSource :
    Obligations.SpanCloseStoresTheSlipAndSwitchesTheSource := by
  intro s slip bad next switched entry
  have bad_iff : bad = decide (slipLimit s < slipOf s.length.la s.length.lb) := by
    have measured : slip = slipOf s.length.la s.length.lb := rfl
    cases source : s.length.source <;> simp only [bad, slipLimit, source, measured]
  refine ⟨?pulse, ?good, ?counts, ?switches, ?loses⟩
  case pulse =>
    intro kind forming on none run within moved la lb grown
    have cfg : (measuredByPulse s).cfg = s.cfg := cfg_congr (measuredByPulse_start s)
    have source : (measuredByPulse s).length.source = s.length.source := movedByPulse_source s
    have span : grown.length.activeSpan = if s.length.source = .a then la else lb := by
      rw [Length.activeSpan_eq]
      change (if moved.length.source = .a then la else lb) = _
      rw [movedByPulse_source]
    rw [exec_activeSourcePulse, activePulse_measured kind forming run within,
      arrivalsPulse_measured_of_none none, slipPulse_of_check (by rwa [cfg]), cfg, source,
      addSpan_measuredByPulse, ← span]
    rfl
  case good =>
    intro good
    rw [closeSpan_good (by simpa [bad_iff] using good)]
    rfl
  case counts =>
    intro isBad few
    rw [closeSpan_counts (by simpa [bad_iff] using isBad) few]
    rfl
  case switches =>
    intro isBad many source
    rw [closeSpan_switches (by simpa [bad_iff] using isBad) many source]
    exact ⟨fun room => offerEntry_of_room (s := s.setLength _) rfl room,
      fun full => offerEntry_of_full (s := s.setLength _) rfl full⟩
  case loses =>
    intro isBad many source run t
    have closes := raiseSoft_spanClosed run
    rw [source] at closes
    simp only [t]
    rw [closeSpan_loses (by simpa [bad_iff] using isBad) many source]
    exact closes

/-! ## What every pulse leaves as it stands -/

/-- The station before the pending arrivals take the pulse. -/
def beforeArrivals (s : State) : State :=
  testMark (formerPulse (twistPulse s.activeStep (s.station.state == .run)
    (retain s.pos (advance s.activeStep (dwellPulse s)))))

theorem activePulse_of_inRun {s : State} (run : s.inRun = true) :
    activePulse s = slipPulse s.activeStep (arrivalsPulse s.activeStep (beforeArrivals s)) := by
  rw [activePulse, if_pos run]
  rfl

/-- The slip check keeps a calm view that sees of length metering the position alone. -/
theorem Calm.slipPulse {β : Type} {view : State → β} (h : Calm view)
    (keeps : ∀ (s : State) (b : Length), b.acc = s.length.acc → view (s.setLength b) = view s)
    (step : Nat) (s : State) : view (Machine.slipPulse step s) = view s := by
  have close (s : State) : view (Machine.closeSpan s) = view s := by
    unfold Machine.closeSpan
    dsimp only
    (repeat' split) <;> simp [h.offerEntry, h.raiseSoft, keeps]
  have grow (l : Length) (source : Source) : (l.addSpan source step).acc = l.acc := by cases source <;> rfl
  unfold Machine.slipPulse
  dsimp only
  (repeat' split) <;> simp [close, keeps, grow]

/-- A pulse keeps a calm view that sees nothing of length metering. -/
theorem Calm.beforeArrivals {β : Type} {view : State → β} (h : Calm view)
    (blind : ∀ (s : State) (b : Length), view (s.setLength b) = view s) (s : State) :
    view (Machine.beforeArrivals s) = view s := by
  have advances (n : Nat) (s : State) : view (Machine.advance n s) = view s := by
    unfold Machine.advance
    dsimp only
    split <;> simp [h.raiseSoft, blind]
  simp [Machine.beforeArrivals, h.testMark, h.formerPulse, h.twistPulse, h.retain, advances, h.dwellPulse]

theorem Calm.activePulse {β : Type} {view : State → β} (h : Calm view)
    (blind : ∀ (s : State) (b : Length), view (s.setLength b) = view s) (s : State) :
    view (Machine.activePulse s) = view s := by
  cases run : s.inRun
  · rw [activePulse_outside run]
  · rw [activePulse_of_inRun run, h.slipPulse fun s b _ => blind s b, h.arrivalsPulse, h.beforeArrivals blind]

/-- The accumulator after a pulse in a run (R1, R2). -/
theorem activePulse_acc {s : State} (run : s.inRun = true) :
    (activePulse s).length.acc = accAfterPulse s := by
  have advanced : (advance s.activeStep (dwellPulse s)).length.acc = accAfterPulse s := by
    rw [advance_dwellPulse]
    split
    · exact movedByPulse_acc s
    · exact (calm_acc.raiseSoft _ _).trans (movedByPulse_acc s)
  calc (activePulse s).length.acc
      = (arrivalsPulse s.activeStep (beforeArrivals s)).length.acc := by
        rw [activePulse_of_inRun run]
        exact calm_acc.slipPulse (fun _ _ same => same) _ _
    _ = (beforeArrivals s).length.acc := calm_acc.arrivalsPulse _ _
    _ = (advance s.activeStep (dwellPulse s)).length.acc :=
        (calm_acc.testMark _).trans <| (calm_acc.formerPulse _).trans <|
          (calm_acc.twistPulse _ _ _).trans (calm_acc.retain _ _)
    _ = accAfterPulse s := advanced

theorem beforeArrivals_arrivals (s : State) : (beforeArrivals s).pace.arrivals = s.pace.arrivals := by
  simp [beforeArrivals]

/-- The pending arrivals after a pulse in a run: every record nearer by the converted step, put in order, those
still on their way kept (R140 to R142). -/
theorem activePulse_arrivals {s : State} (run : s.inRun = true) :
    (activePulse s).pace.arrivals =
      (sortArrivals (s.pace.arrivals.map (nearer s))).filter (fun a => decide (0 < a.remaining)) := by
  have listen : (beforeArrivals s).pace.listen = s.pace.listen :=
    calm_listen.beforeArrivals (fun _ _ => rfl) s
  have takeUp (n : Nat) : takeUpOf n (beforeArrivals s) = feederTakeUp n s := by
    rw [takeUpOf, State.peerOf, listen]
    rfl
  have reduced :
      reduceArrivals s.activeStep (beforeArrivals s) = sortArrivals (s.pace.arrivals.map (nearer s)) := by
    simp only [reduceArrivals, takeUp, beforeArrivals_arrivals]
    rfl
  rw [activePulse_of_inRun run, slipPulse_arrivals, arrivalsPulse_arrivals, reduced]

/-- Settles O9: the accumulator and the list by their own lemmas, the rest as calm views of a pulse. -/
theorem activePulseAdvancesThePosition : Obligations.ActivePulseAdvancesThePosition := by
  intro s
  refine ⟨_, exec_activeSourcePulse s, ?acc, fun run => ⟨?perm, ?order⟩, ?start, ?listen, ?pending,
    activePulse_outside⟩
  case acc =>
    cases run : s.inRun
    · simp [activePulse_outside run]
    · simp [activePulse_acc run]
  case perm =>
    rw [activePulse_arrivals run]
    exact (sortArrivals_perm _).filter _
  case order =>
    rw [activePulse_arrivals run]
    exact ((sortArrivals_sorted _).imp fun before => (Arrival.before_iff _ _).mp before).filter _
  case start => exact calm_start.activePulse (fun _ _ => rfl) s
  case listen => exact calm_listen.activePulse (fun _ _ => rfl) s
  case pending => exact calm_pending.activePulse (fun _ _ => rfl) s

/-! ## The crossing of the run limit (R2) -/

theorem retain_of_clear {s : State} (clear : s.map.entries = []) (before : Nat) : retain before s = s := by
  unfold retain
  split
  · rfl
  · rw [clear, List.filter_nil, ← clear]; rfl

theorem testMark_of_unmarked {s : State} (unmarked : s.marks.next = none) : testMark s = s := by
  unfold testMark
  split <;> simp [testMarkAt, unmarked]

/-- At a crossing a pulse on a quiet station moves the position and raises RUN_LIMIT, nothing else (R2). -/
theorem activePulse_of_crossing {s : State} (quiet : Quiet s) (run : s.inRun = true)
    (crossing : ¬ withinRunLimit s) : activePulse s = raiseSoft .runLimit (movedByPulse s) := by
  obtain ⟨kind, forming, off, unmarked, clear, none⟩ := quiet
  have cfg : (raiseSoft .runLimit (movedByPulse s)).cfg = s.cfg := cfg_congr (by simp)
  rw [activePulse_of_plain kind forming run, advance_dwellPulse, if_neg crossing, retain_of_clear (by simpa),
    testMark_of_unmarked (by simpa), arrivalsPulse_of_none (by simpa), slipPulse_of_no_check (by rwa [cfg])]

/-- Settles O11: the crossing is a SOFT cause raised on the moved state. -/
theorem crossingTheRunLimitRaisesRunLimit : Obligations.CrossingTheRunLimitRaisesRunLimit := by
  refine ⟨fun s quiet lawful run below above new room => ?crossing,
    fun s c notBrk notStop lawful => ⟨raiseSoft_ignored, fun run new room => ?soft⟩⟩
  case crossing =>
    have moves : activePulse s = raiseSoft .runLimit (movedByPulse s) :=
      activePulse_of_crossing quiet run (by omega)
    have station := movedByPulse_station s
    have own : (movedByPulse s).own = s.own := by rw [State.own, movedByPulse_start, State.own]
    have acc := (calm_acc.raiseSoft .runLimit (movedByPulse s)).trans (movedByPulse_acc s)
    have run' : (movedByPulse s).inRun = true := by rwa [State.inRun, station]
    have new' : LocalCause.runLimit ∉ (movedByPulse s).station.locals := by rwa [station]
    have room' : (movedByPulse s).ply.queue.length < (movedByPulse s).ply.room := by
      rwa [movedByPulse_ply]
    have state := softened_state (c := .runLimit) rfl lawful
    refine ⟨_, exec_activeSourcePulse s, ?_⟩
    rw [moves, raiseSoft_locals run' new' room', raiseSoft_peers run' new' room', raiseSoft_alm run' new' room',
      raiseSoft_station run' new' room', raiseSoft_queue run' new' room', raiseSoft_former run' new' room',
      station, own, movedByPulse_ply]
    exact ⟨acc, rfl, rfl, rfl, state, rfl, by simp, by simp, by simp, by simp⟩
  case soft =>
    have level := LocalCause.level_soft notBrk notStop
    have state := softened_state level lawful
    have acc := calm_acc.raiseSoft c s
    intro t
    simp only [t]
    rw [raiseSoft_locals run new room, raiseSoft_peers run new room, raiseSoft_alm run new room,
      raiseSoft_firstCause run new room, raiseSoft_station run new room, raiseSoft_queue run new room,
      raiseSoft_former run new room, level]
    exact ⟨rfl, rfl, rfl, fun empty => if_pos empty, fun held => if_neg (by simp [held]), state, rfl, acc,
      by simp, rfl, by simp, by simp, by simp⟩

end Sys2Proof.Machine
end

section
/-!
PROOF. The position at the other commands: within a run none of them moves it.
-/

namespace Sys2Proof.Machine

open Sys2Proof.Safety

/-! ## The position at every other command (R1) -/

theorem acceptHandoff_acc (e : ListenEntry) (h : HandoffRead) (s : State) :
    (acceptHandoff e h s).length.acc = s.length.acc := by
  unfold acceptHandoff
  dsimp only
  split
  · exact calm_acc.offerArrival _ _
  · exact calm_acc.joinArrivals _ _

theorem stageBank_acc (k : Nat) (s : State) : (stageBank k s).length.acc = s.length.acc := by
  have freed (t : State) : (switchBank k t.pos t).1.length.acc = t.length.acc := calm_acc.switchBank _ _ _
  unfold stageBank
  dsimp only
  (repeat' split) <;> simp [freed]

theorem endRun_acc (s : State) : (endRun s).length.acc = s.length.acc := by
  unfold endRun
  dsimp only
  split <;> simp

/-- A request changes the position only where it begins a run, and none begins while one exists (R18, R120). -/
theorem perform_acc {s : State} (run : s.inRun = true) (code : Nat) (args : List Byte) :
    (perform code args s).1.length.acc = s.length.acc := by
  have notIdle : s.station.state ≠ .idle := by
    intro idle
    simp [State.inRun, StationState.inRun, idle] at run
  have go : (takeGo s.own s).length.acc = s.length.acc := calm_acc.takeGo _ _
  have raise (c : LocalCause) : (raiseLocal c s).length.acc = s.length.acc := calm_acc.raiseLocal _ _
  have clear (force : Bool) : (clearCauses force s).length.acc = s.length.acc := calm_acc.clearCauses _ _
  -- one case for each request code of R190, in the order of the codes
  unfold perform
  split
  case h_1 => unfold doStatus; dsimp only; (repeat' split) <;> rfl
  case h_2 => unfold doLine; dsimp only; (repeat' split) <;> rfl
  case h_3 => unfold doPeers inService; dsimp only; (repeat' split) <;> rfl
  case h_4 => unfold doMap inService; (repeat' split) <;> rfl
  case h_5 => unfold doPackage inService; (repeat' split) <;> rfl
  case h_6 => unfold doBankRead inService; dsimp only; (repeat' split) <;> rfl
  case h_7 => unfold doBankWrite inService; dsimp only; (repeat' split) <;> simp [refuse]
  case h_8 => simp only [doRun, if_pos notIdle]; (repeat' split) <;> rfl
  case h_9 => unfold doChange; (repeat' split) <;> simp [refuse, stageBank_acc]
  case h_10 => unfold doGo; (repeat' split) <;> simp [refuse, go]
  case h_11 => unfold doStop; (repeat' split) <;> simp [refuse, raise]
  case h_12 => unfold doClear inService; dsimp only; (repeat' split) <;> simp [refuse, clear]
  case h_13 => unfold doEnd; (repeat' split) <;> simp [refuse, endRun_acc]
  case h_14 => unfold doRestart; (repeat' split) <;> simp [refuse]
  case h_15 => rfl

theorem takeAsk_acc {s : State} (run : s.inRun = true) (f : RxFrame) :
    (takeAsk f s).length.acc = s.length.acc := by
  have performed (code : Nat) (args : List Byte) :
      (performAsk code args (holdPlace true s)).1.length.acc = s.length.acc := by
    unfold performAsk
    split
    · rfl
    · exact perform_acc (s := holdPlace true s) run code args
  unfold takeAsk
  split
  · unfold askAll askHere
    (repeat' split) <;> simp [performed, perform_acc run]
  · rfl

theorem handOn_acc {s : State} (run : s.inRun = true) (kind : BitVec 4) (f : RxFrame) :
    (handOn kind f s).length.acc = s.length.acc := by
  have go (x : Nat) : (takeGo x s).length.acc = s.length.acc := calm_acc.takeGo _ _
  have halt (e : ListenEntry) (h : PeerHalt) : (takeHalt e h s).length.acc = s.length.acc :=
    calm_acc.takeHalt _ _ _
  have resume (x : Nat) : (takeResume x s).length.acc = s.length.acc := calm_acc.takeResume _ _
  unfold handOn
  split_ifs
  · exact takeAsk_acc run f
  · rfl
  · unfold takePace; split <;> simp
  · unfold haltFrame; split <;> simp [halt]
  · unfold resumeFrame; split <;> simp [resume]
  · unfold goFrame; (repeat' split) <;> simp [go]
  · unfold handoffFrame; dsimp only; (repeat' split) <;> simp [acceptHandoff_acc]
  · rfl

/-- No frame of the line moves the position of a run. -/
theorem receive_acc {s : State} (run : s.inRun = true) (kind : BitVec 4) (f : RxFrame) :
    (receive kind f s).length.acc = s.length.acc := by
  have handed (fate : RxFate) : (handOn kind f (hearFrame fate s)).length.acc = s.length.acc :=
    handOn_acc (s := hearFrame fate s) run kind f
  unfold receive
  dsimp only
  (repeat' split) <;> simp [firstGap, handed]

theorem receiveLine_acc {s : State} (run : s.inRun = true) (chars : List LineByte) :
    (receiveLine chars s).length.acc = s.length.acc := by
  unfold receiveLine receiveBytes
  (repeat' split) <;> simp [firstGap, receive_acc run]

theorem tick_acc (s : State) : (tick s).length.acc = s.length.acc := by
  have dwell (t : State) : (beginDwell t).length.acc = t.length.acc := calm_acc.beginDwell t
  have stopped (t : State) : (enterStopped t).length.acc = t.length.acc := calm_acc.enterStopped t
  have dwelt : (tickDwell s).length.acc = s.length.acc := by
    unfold tickDwell
    dsimp only
    (repeat' split) <;> simp [dwell]
  have ramped (t : State) : (tickRamp t).length.acc = t.length.acc := by
    unfold tickRamp
    dsimp only
    (repeat' split) <;> simp [stopped]
  have paced (t : State) : (tickPace t).length.acc = t.length.acc := by
    unfold tickPace
    split <;> simp [ramped]
  unfold tick
  split
  · rfl
  · simp [paced, dwelt]

/-! ## The line's own events leave length metering alone -/

theorem startAccess_length (s : State) : (startAccess s).length = s.length := by
  unfold startAccess; (repeat' split) <;> simp

theorem frameSent_length (s : State) : (frameSent s).length = s.length := by
  have sent (b : TxBody) (t : State) : (reportSent b t).length = t.length := by
    unfold reportSent; split <;> rfl
  unfold frameSent; dsimp only; (repeat' split) <;> simp [sent]

theorem collide_length (s : State) : (collide s).length = s.length := by
  unfold collide; dsimp only; (repeat' split) <;> simp

theorem nextInBurst_length (s : State) : (nextInBurst s).length = s.length := by
  unfold nextInBurst; (repeat' split) <;> simp

theorem readAttempt_length (r : ReadResult) (s : State) : (readAttempt r s).length = s.length := by
  have judged (bs : List Byte) (t : State) : (judgeBlock bs t).length = t.length := by
    unfold judgeBlock toHeld toIdle takeValues
    dsimp only
    (repeat' split) <;> simp
  unfold readAttempt toHeld
  dsimp only
  (repeat' split) <;> simp [judged]

/-- A reset ends every run (R197). -/
theorem coldReset_inRun (s : State) : (coldReset s).inRun = false := rfl

theorem warmRestart_inRun (straps : Straps) (s : State) : (warmRestart straps s).inRun = false := rfl

/-- A command that begins in a run and leaves a run standing keeps the position, unless it is the pulse of the
active source (R1). -/
theorem exec_acc {c : Instr} {s t : State} (performed : exec c s = .next t) (run : s.inRun = true)
    (goesOn : t.inRun = true) (other : c ≠ .activeSourcePulse) : t.length.acc = s.length.acc := by
  cases c <;> cases performed
  case coldReset => simp [coldReset_inRun] at goesOn
  case resetRelease => unfold releaseReset; split <;> rfl
  case blockReadAttempt => rw [readAttempt_length]
  case readRetry => unfold retryRead; split <;> rfl
  case warmRestart =>
    unfold takeWarmRestart at goesOn ⊢
    split at goesOn
    · simp [warmRestart_inRun] at goesOn
    · rename_i notDue; rw [if_neg notDue]
  case activeSourcePulse => contradiction
  case nonActiveSourcePulse => unfold nonActivePulse Length.addSpan; (repeat' split) <;> rfl
  case spindlePulse => exact calm_acc.spindlePulse s
  case rowStroke => exact calm_acc.rowStroke s
  case sectionEdge => exact calm_acc.sectionEdge _ s
  case jniEdge =>
    rw [jniEdge, if_pos run]
    exact calm_acc.writeJoin s
  case brkActive =>
    split
    · rfl
    · exact calm_acc.raiseLocal .brk (s.setStation _)
  case brkInactive => rfl
  case stpEdge => exact calm_acc.raiseLocal .localStop s
  case staEdge =>
    have notIdle : s.station.state ≠ .idle := fun idle => by
      simp [State.inRun, StationState.inRun, idle] at run
    split
    · contradiction
    · exact calm_acc.takeGo s.own s
    all_goals rfl
  case clrEdge =>
    rw [if_pos run]
    exact calm_acc.clearCauses false s
  case regulationTick => exact tick_acc s
  case dwellStart => exact calm_acc.beginDwell s
  case pacePeriodExpiry => rw [refreshPace_length]
  case peerStale => unfold staleAt; dsimp only; split <;> rfl
  case markShiftComplete => rfl
  case cutPulseEnd => rfl
  case accessStart => rw [startAccess_length]
  case frameSent => rw [frameSent_length]
  case collision => rw [collide_length]
  case normalHoldTimeout => unfold holdTimeout; split <;> rfl
  case receiveError => exact receiveLine_acc run _
  case burstNextFrame => rw [nextInBurst_length]
  all_goals exact receive_acc run _ _

/-- Settles O58: the pulse moves the accumulator up, within its range, and no other command moves it. -/
theorem positionNeverDecreasesInARun : Obligations.PositionNeverDecreasesInARun := by
  intro c s t performed fits run goesOn
  have grows : s.length.acc ≤ t.length.acc := by
    by_cases pulse : c = .activeSourcePulse
    · subst pulse
      cases performed
      rw [activePulse_acc run, accAfterPulse]
      omega
    · exact (exec_acc performed run goesOn pulse).ge
  exact ⟨grows, Nat.div_le_div_right grows⟩

end Sys2Proof.Machine
end

section
/-!
PROOF. The remaining statements about a dwell, STA, the inputs that are only counted, and the state after
reset.
-/

namespace Sys2Proof.Machine

open Sys2Proof.Safety

/-- Settles O23, block by block from what a GO queued with room leaves (`takeGo_of_room`). -/
theorem staGivesGoInReady : Obligations.StaGivesGoInReady := by
  intro s
  refine ⟨fun ready room => ⟨_, exec_staEdge_ready ready, ?_⟩, exec_staEdge_ignored⟩
  rw [takeGo_of_room _ room]
  refine ⟨?station, ?queue, ?waiting, ?pace, ?length, ?twist, ?knot, ?map, ?former, ?banks, ?marks⟩
  case station => simp [Station.enter, StationState.driven]
  case waiting => simp [refreshPace, Station.enter, StationState.reports]
  case pace => simp [refreshPace, Station.enter, StationState.reports, State.cfg]
  case length => simp [loadDwell_length, State.cfg]
  case twist =>
    rw [loadDwell_twist, openRow_twist, openWindow_twist, cfg_congr (s := s) (by simp),
      pos_congr (s := s) (by simp)]
    simp
  case knot =>
    rw [loadDwell_knot, openRow_knot, cfg_congr (s := s) (by simp), pos_congr (s := s) (by simp)]
    simp
  all_goals simp

/-- Settles O29: the event is `writeDwell` on the station that dwells, which merges, inserts or is refused. -/
theorem dwellStartWritesADwell : Obligations.DwellStartWritesADwell := by
  intro s
  refine ⟨fun other => by simp [beginDwell_ignored other], fun run still => ?_⟩
  simp only [exec_dwellStart, beginDwell_of_run run still]
  refine ⟨fun e last here => ?merged, fun apart => ⟨fun room => ?inserted, fun full => ?refused⟩⟩
  case merged => rw [writeDwell_merges (s := dwells s) last here]; rfl
  case inserted =>
    rw [writeDwell_offers (s := dwells s) apart, offerPoint_of_room (s := dwells s) rfl room]; rfl
  case refused =>
    rw [writeDwell_offers (s := dwells s) apart, offerPoint_of_full (s := dwells s) rfl full]; rfl

/-! ## The inputs that are only counted -/

/-- Settles O13: each input's meaning under its own condition. -/
theorem checkPulsesSpindlePulsesAndSectionEdgesAreCounted :
    Obligations.CheckPulsesSpindlePulsesAndSectionEdgesAreCounted := by
  intro s i
  refine ⟨?check, ?spindle, ?edge⟩
  case check =>
    simp only [exec_nonActiveSourcePulse, nonActivePulse]
    congr 1
    simp only [Bool.and_eq_true, Bool.not_eq_true', bne_iff_ne, and_assoc]
    split
    · cases source : s.length.source <;> simp [Length.addSpan, State.setLength, source]
    · rfl
  case spindle =>
    simp only [exec_spindlePulse, spindlePulse, isLaying_iff, Bool.and_eq_true, Bool.not_eq_true', and_assoc]
    rfl
  case edge =>
    simp only [exec_sectionEdge, sectionEdge, isNetting_iff, Bool.and_eq_true, Bool.not_eq_true',
      decide_eq_true_eq, and_assoc]
    rfl

/-! ## The state after reset -/

/-- Settles O50: each law is a finite fact about the one state. -/
theorem resetStateIsLawful : Obligations.ResetStateIsLawful := by
  have station : StationLawful State.reset := by decide
  have halts : HaltsLawful State.reset := by decide
  have map : MapLawful State.reset := by decide
  have limits : LimitsLawful State.reset := by decide
  have capacities : CapacityLawful State.reset := by decide
  have cuts : CutsLawful State.reset := by decide
  have packages : PackageLawful State.reset := by decide
  have banks : BankLawful State.reset := by decide
  exact ⟨station, halts, map, limits, capacities, cuts, packages, banks⟩

end Sys2Proof.Machine
end

section
/-!
PROOF. The arithmetic of a twist window: measured twist, deviation and class.
-/

namespace Sys2Proof.Machine

open Sys2Proof.Safety

/-- Settles O14: the floor of the quotient shifted by a half, clamped. -/
theorem measuredTwistIsRoundedHalfUp : Obligations.MeasuredTwistIsRoundedHalfUp := by
  intro ppr p w hppr hw
  have positive : 0 < 2 * ppr * w := by positivity
  unfold measureT10
  obtain ⟨n, pulses⟩ : ∃ n, 2 * p * 10000000 = n := ⟨_, rfl⟩
  simp only [pulses]
  have low := Nat.mul_div_le (n + ppr * w) (2 * ppr * w)
  have high := Nat.lt_mul_div_succ (n + ppr * w) positive
  generalize (n + ppr * w) / (2 * ppr * w) = q at low high
  refine ⟨Nat.min_le_left _ _, fun below => ?_, fun top => ?_⟩
  · rw [min_eq_right (by omega)]
    exact ⟨low, by linarith⟩
  · have reached : 2 * ppr * w * 65535 ≤ 2 * ppr * w * q := Nat.mul_le_mul_left _ (by omega)
    linarith

theorem classify_inTol {tolM tolX : Nat} {e : Int} (within : e.natAbs ≤ tolM) :
    classify tolM tolX e = .inTol := by
  simp [classify, within]

theorem classify_off {tolM tolX : Nat} {e : Int} (off : tolM < e.natAbs) :
    classify tolM tolX e = if tolX < e.natAbs then .major else .minor := by
  simp only [classify, if_neg (not_le.mpr off)]
  by_cases beyond : tolX < e.natAbs
  · simp [beyond]
  · simp [beyond, not_lt.mp beyond]

/-- A window with no pulse measures 0 (R25). -/
theorem measureT10_zero {ppr w : Nat} (hppr : 0 < ppr) (hw : 0 < w) : measureT10 ppr 0 w = 0 := by
  have half : ppr * w < 2 * ppr * w := by
    have := Nat.mul_pos hppr hw
    nlinarith
  simp [measureT10, Nat.div_eq_of_lt half]

/-- A whole target missed is −1000 permille, clamped to −999 (R26). -/
theorem deviationE_of_none {eff : Nat} (heff : 0 < eff) : deviationE (-(eff : Int)) eff = -999 := by
  have missed : (-(eff : Int) * 1000).tdiv eff = -1000 := by
    rw [neg_mul, Int.neg_tdiv, Int.mul_tdiv_cancel_left _ (by omega)]
  rw [deviationE, missed]
  rfl

/-- Settles O15. -/
theorem windowClassFollowsTheMagnitudeOfE : Obligations.WindowClassFollowsTheMagnitudeOfE := by
  intro tolM tolX e
  refine ⟨classify_inTol, fun off within => ?minor, fun off beyond => ?major, fun same => ?none,
    fun ppr w eff hppr hw heff _ bound => ?still⟩
  case minor => rw [classify_off off, if_neg (by omega)]
  case major => rw [classify_off off, if_pos beyond]
  case none =>
    by_cases within : e.natAbs ≤ tolM
    · simp [classify_inTol within]
    · simp [classify_off (not_le.mp within), ← same, not_le.mp within]
  case still =>
    have d10 : (measureT10 ppr 0 w : Int) - eff = -eff := by simp [measureT10_zero hppr hw]
    have e : deviationE ((measureT10 ppr 0 w : Int) - eff) eff = -999 := by rw [d10, deviationE_of_none heff]
    refine ⟨d10, e, ?_⟩
    rw [e, classify_off (by omega : tolM < (-999 : Int).natAbs), if_pos (by omega)]

end Sys2Proof.Machine
end

section
/-!
PROOF. Run start and the close of a twist window, each cut into the parts that the proofs below speak of.
-/

namespace Sys2Proof.Machine

open Sys2Proof.Safety

/-! ## Run start (R151) -/

/-- The state with bank `k` ACTIVE. -/
def banked (k : Nat) (s : State) : State := s.setBank k { s.bank k with state := .active }

/-- Twist regulation after run start: cleared, and on a LAYING station aimed at the bank's target10 (R45). -/
def startedTwist (k : Nat) (s : State) : Twist :=
  if s.isLaying then (retarget ((banked k s).setTwist s.twist.atRunStart)).twist else s.twist.atRunStart

/-- The blocks at run start before the marks restart and the first package opens (R18, R45, R65, R86, R149). -/
def clearedBlocks (k : Nat) (s : State) : State :=
  { banked k s with
    length := .reset, map := .reset, twist := startedTwist k s, knot := .reset
    pace := s.pace.atRunStart, marks := { s.marks with skipped := 0 } }

theorem startBlocks_eq (k : Nat) (s : State) :
    startBlocks k s =
      if s.forming then startPackages (clearedBlocks k s)
      else (clearedBlocks k s).setMarks
        ((clearedBlocks k s).marks.restart (clearedBlocks k s).activePackagePage.markInterval) := by
  have start : (banked k s).start = s.start := by simp [banked]
  have marks : (banked k s).marks = s.marks := by simp [banked]
  have pace : (banked k s).pace = s.pace := by simp [banked]
  have twist : (banked k s).twist = s.twist := by simp [banked]
  have kind : (banked k s).isLaying = s.isLaying := by rw [State.isLaying, State.isLaying, cfg_congr start]
  have forms : (banked k s).forming = s.forming := by rw [State.forming, State.forming, cfg_congr start]
  have cleared : clearedBlocks k s = { banked k s with
      length := .reset, map := .reset, knot := .reset
      twist := if (banked k s).isLaying
        then (retarget ((banked k s).setTwist (banked k s).twist.atRunStart)).twist
        else (banked k s).twist.atRunStart
      pace := (banked k s).pace.atRunStart, marks := { (banked k s).marks with skipped := 0 } } := by
    rw [clearedBlocks, startedTwist, kind, twist, marks, pace]
  rw [cleared, ← forms, startBlocks]
  change _ = if (banked k s).forming then _ else _
  dsimp only
  rw [← banked]
  generalize banked k s = m
  have here (l : Length) (p : RunMap) (x : Twist) :
      (((m.setLength l).setMap p).setTwist x).isLaying = m.isLaying := rfl
  simp only [here]
  cases m.isLaying <;> rfl

/-! ## The close of a twist window (R24) -/

/-- T10 of the open window (R25). -/
def windowT10 (s : State) : Nat := measureT10 s.cfg.ppr s.twist.pulses s.twist.width

/-- D10 of the open window, against eff10 or, while that is absent, the bank's target10 (R26). -/
def windowD10 (s : State) : Int := (windowT10 s : Int) - s.twist.eff10.getD s.twistPage.target10

/-- E of the open window (R26). -/
def windowE (s : State) : Int := deviationE (windowD10 s) (s.twist.eff10.getD s.twistPage.target10)

/-- The class of the open window (R27). -/
def windowClass (s : State) : WindowClass := classify s.twistPage.tolM s.twistPage.tolX (windowE s)

/-- The window evaluated and stored, before the run it belongs to (R25 to R28). -/
def storedWindow (s : State) : State :=
  s.setTwist (s.twist.store (windowT10 s) (windowD10 s) (windowE s) (windowClass s))

/-- Steps 1 to 4 of R24. -/
def evaluatedWindow (s : State) : State × List Handover := twistRunStep (windowClass s) (storedWindow s)

/-- Steps 5 to 8 of R24: trim in RUN, eff10, own offer and the next window. -/
def nextWindow (ran : Bool) (e : Int) (gain : Nat) (s : State) : State :=
  openWindow (retarget (if ran then s.setTwist { s.twist with trim := nextTrim s.twist.trim e gain } else s))

/-- The close of a window with the former told, before a STAGED bank takes effect (R24, R84). -/
def closedWindow (ran : Bool) (s : State) : State :=
  tellAll (evaluatedWindow s).2 (nextWindow ran (windowE s) s.twistPage.gain (evaluatedWindow s).1)

theorem closeWindow_eq (ran : Bool) (s : State) :
    closeWindow ran s = if (closedWindow ran s).forming then closedWindow ran s
      else (switchStaged (closedWindow ran s).pos (closedWindow ran s)).1 := rfl

end Sys2Proof.Machine
end

section
/-!
PROOF. The ranges of trim, commanded rate, own offer and run pace, which every step keeps.
-/

namespace Sys2Proof.Machine

open Sys2Proof.Safety

/-! ## The run pace at the shared operations: entry to STOPPED from READY alone clears it -/

@[simp] theorem refreshPace_run (s : State) : (refreshPace s).pace.run = s.pace.run := by
  unfold refreshPace; split <;> simp
@[simp] theorem changeState_run (t : StationState) (s : State) : (changeState t s).pace.run = s.pace.run := by
  simp [changeState]
@[simp] theorem settleRemoval_run (s : State) : (settleRemoval s).pace.run = s.pace.run := by
  unfold settleRemoval; dsimp only; (repeat' split) <;> simp [resumeRun]

/-! ## The values in their ranges -/

/-- START's block stands at `b`, and the four values are within the ranges that its configuration gives
(R33, R38, R40, R135). -/
structure Limited (b : StartBlock) (s : State) : Prop where
  start : s.start = b
  trimLow : -200 ≤ s.twist.trim
  trimHigh : s.twist.trim ≤ 200
  rate : s.twist.sCmd ≤ s.cfg.smax
  offer : s.twist.ownOffer ≤ s.cfg.ownLimit
  run : s.pace.run ≤ s.cfg.ownLimit

theorem limitsLawful_iff (s : State) : LimitsLawful s ↔ startStill s ∧ Limited s.start s :=
  ⟨fun ⟨still, low, high, rate, offer, run⟩ => ⟨still, rfl, low, high, rate, offer, run⟩,
    fun ⟨still, _, low, high, rate, offer, run⟩ => ⟨still, low, high, rate, offer, run⟩⟩

theorem ownOfferNow_le (s : State) (t : Twist) : ownOfferNow s t ≤ s.cfg.ownLimit := by
  unfold ownOfferNow offerOf
  (repeat' split) <;> simp

theorem nextTrim_range (trim e : Int) (gain : Nat) :
    -200 ≤ nextTrim trim e gain ∧ nextTrim trim e gain ≤ 200 := by
  simp only [nextTrim, clampInt]; omega

/-- A trim kept or cleared stays in its range (R42). -/
theorem range_ite {p : Prop} [Decidable p] {trim : Int} (low : -200 ≤ trim) (high : trim ≤ 200) :
    -200 ≤ (if p then trim else 0) ∧ (if p then trim else 0) ≤ 200 := by
  split <;> omega

theorem commandRate_le (smax base : Nat) (trim : Int) : commandRate smax base trim ≤ smax :=
  Nat.min_le_left _ _

/-- The set-point of a tick leaves trim and own offer alone, and its rate is 0 but on a driven LAYING station
(R38). -/
theorem tickSetpoint_trim (s : State) : (tickSetpoint s).twist.trim = s.twist.trim := by
  unfold tickSetpoint; dsimp only; split_ifs <;> rfl
theorem tickSetpoint_ownOffer (s : State) : (tickSetpoint s).twist.ownOffer = s.twist.ownOffer := by
  unfold tickSetpoint; dsimp only; split_ifs <;> rfl
theorem tickSetpoint_sCmd (s : State) : (tickSetpoint s).twist.sCmd =
    if s.isLaying && s.station.state.driven then
      commandRate s.cfg.smax (baseRate s.pace.run (s.twist.eff10.getD 0)) s.twist.trim else 0 := by
  unfold tickSetpoint; dsimp only; split_ifs <;> rfl

theorem leastOf_le (own : Nat) (l : List ListenEntry) : leastOf own l ≤ own := by
  induction l generalizing own with
  | nil => exact le_rfl
  | cons e l ih => exact (ih _).trans (Nat.min_le_left _ _)

/-- A ramp step ends within whatever bounds the run pace and the target (R135). -/
theorem rampStep_le {up down target run top : Nat} (aim : target ≤ top) (now : run ≤ top) :
    rampStep up down target run ≤ top := by
  unfold rampStep; split_ifs <;> omega

namespace Limited

variable {b : StartBlock} {s : State}

/-- START's block, twist regulation and the run pace decide. -/
theorem frame {t : State} (h : Limited b s)
    (same : t.start = s.start ∧ t.twist = s.twist ∧ t.pace.run = s.pace.run) : Limited b t := by
  obtain ⟨start, twist, run⟩ := same
  obtain ⟨stands, low, high, rate, offer, pace⟩ := h
  refine ⟨start.trans stands, ?_, ?_, ?_, ?_, ?_⟩ <;> simpa only [twist, run, cfg_congr start]

/-- The run pace falls to any value within the own pace limit (R135). -/
theorem setPace (h : Limited b s) (p : Pace) (run : p.run ≤ s.cfg.ownLimit) : Limited b (s.setPace p) :=
  ⟨h.start, h.trimLow, h.trimHigh, h.rate, h.offer, run⟩

/-- Twist regulation changes, but not in what the ranges bound. -/
theorem setTwist (h : Limited b s) (t : Twist)
    (same : t.trim = s.twist.trim ∧ t.sCmd = s.twist.sCmd ∧ t.ownOffer = s.twist.ownOffer) :
    Limited b (s.setTwist t) :=
  let ⟨trim, rate, offer⟩ := same
  ⟨h.start, trim ▸ h.trimLow, trim ▸ h.trimHigh, rate.trans_le h.rate, offer.trans_le h.offer, h.run⟩

/-- A new trim in its range (R33). -/
theorem setTrim (h : Limited b s) (t : Twist) (range : -200 ≤ t.trim ∧ t.trim ≤ 200)
    (same : t.sCmd = s.twist.sCmd ∧ t.ownOffer = s.twist.ownOffer) : Limited b (s.setTwist t) :=
  let ⟨low, high⟩ := range
  let ⟨rate, offer⟩ := same
  ⟨h.start, low, high, rate.trans_le h.rate, offer.trans_le h.offer, h.run⟩

variable (h : Limited b s)
include h

/-! ## Operations that leave twist regulation and the run pace alone -/

theorem setStation (x : Station) : Limited b (s.setStation x) := h.frame (by simp)
theorem keepPace (x : Pace) (run : x.run = s.pace.run) : Limited b (s.setPace x) :=
  h.setPace x (run.trans_le h.run)
theorem setFormer (x : Former) : Limited b (s.setFormer x) := h.frame (by simp)
theorem setLength (x : Length) : Limited b (s.setLength x) := h.frame (by simp)
theorem setKnot (x : Knot) : Limited b (s.setKnot x) := h.frame (by simp)
theorem setMarks (x : Marks) : Limited b (s.setMarks x) := h.frame (by simp)
theorem setBank (k : Nat) (x : Bank) : Limited b (s.setBank k x) := h.frame (by simp)
theorem setCuts (l : List Cut) : Limited b (Machine.setCuts l s) := h.frame (by simp)
theorem refuseCut : Limited b (Machine.refuseCut s) := h.frame (by simp)
theorem testMark : Limited b (Machine.testMark s) := h.frame (by simp)
theorem mapOpen (f : PackageRecord → PackageRecord) : Limited b (Machine.mapOpen f s) := h.frame (by simp)
theorem setPly (x : Ply) : Limited b (s.setPly x) := h.frame (by simp)
theorem reportDrop (x : TxBody) : Limited b (Machine.reportDrop x s) := h.frame (by simp)
theorem lineError (e : LineError) (x y : Nat) : Limited b (Machine.lineError e x y s) := h.frame (by simp)
theorem hearFrame (f : RxFate) : Limited b (Machine.hearFrame f s) := h.frame (by simp)
theorem sendPick (p : Pick) (n : Nat) : Limited b (Machine.sendPick p n s) := h.frame (by simp)
theorem openRecord (k x : Nat) : Limited b (Machine.openRecord k x s) := h.frame (by simp)
theorem enqueue (x : TxBody) : Limited b (Machine.enqueue x s) := h.frame (by simp)
theorem announce (c : LocalCause) : Limited b (Machine.announce c s) := h.frame (by simp)
theorem refreshPace : Limited b (Machine.refreshPace s) := h.frame (by simp)
theorem changeState (t : StationState) : Limited b (Machine.changeState t s) := h.frame (by simp)
theorem countDropped : Limited b (Machine.countDropped s) := h.frame (by simp)
theorem mergeLocal (k : EntryKind) : Limited b (Machine.mergeLocal k s) := h.frame (by simp)
theorem closeAsHandover (k : EntryKind) : Limited b (Machine.closeAsHandover k s).1 :=
  h.frame (by simp [Machine.closeAsHandover])
theorem closeKnotEntries : Limited b (Machine.closeKnotEntries s).1 := h.frame (by simp)
theorem switchKnot : Limited b (Machine.switchKnot s).1 := h.frame (by simp)

/-! ## Station state and causes -/

theorem stopFromReady : Limited b (Machine.stopFromReady s) := by
  have still : Limited b (clearDwell s) := h.frame (by simp)
  unfold Machine.stopFromReady
  exact (still.setPace { (clearDwell s).pace with run := 0 } (Nat.zero_le _)).changeState _

theorem actSoft : Limited b (Machine.actSoft s) := by
  unfold Machine.actSoft
  split
  · exact h.stopFromReady
  · split
    · exact h
    · exact h.frame (by simp [ease])
  · exact h

theorem raiseSoft (c : LocalCause) : Limited b (Machine.raiseSoft c s) := by
  unfold Machine.raiseSoft
  split
  · exact ((h.setStation (s.station.takeLocal s.own c)).announce c).actSoft
  · exact h

/-! ## The map -/

theorem offerRaw (e : MapEntry) : Limited b (Machine.offerRaw e s).1 := by
  unfold Machine.offerRaw
  dsimp only
  split
  · exact h.frame (by simp)
  · exact h.frame (by simp)
  · exact h.frame (by simp)
  · exact h.countDropped.raiseSoft _

theorem offerLocal (k : EntryKind) : Limited b (Machine.offerLocal k s).1 := by
  have forgotten : Limited b (forgetLocal k s) := h.frame (by simp)
  unfold Machine.offerLocal
  dsimp only
  split
  · exact forgotten.offerRaw _
  · exact forgotten.offerRaw _
  · exact h.offerRaw _

/-! ## The bank switch -/

theorem retarget : Limited b (Machine.retarget s) :=
  ⟨h.start, h.trimLow, h.trimHigh, h.rate,
    ownOfferNow_le s { s.twist with eff10 := some (balance s.twistPage.target10 (balancingFeeders s)) }, h.run⟩

theorem openWindow : Limited b (Machine.openWindow s) := by
  unfold Machine.openWindow
  split
  · exact h.setTwist _ ⟨rfl, rfl, rfl⟩
  · exact h

theorem endTwistRun : Limited b (Machine.endTwistRun s).1 :=
  (h.setTwist s.twist.endRun ⟨rfl, rfl, rfl⟩).frame (by simp [Machine.endTwistRun])

theorem switchTwist (old : Nat) : Limited b (Machine.switchTwist old s).1 := by
  unfold Machine.switchTwist
  split
  · have ended : Limited b (Machine.endTwistRun (s.setTwist s.twist.discardWindow)).1 :=
      (h.setTwist s.twist.discardWindow ⟨rfl, rfl, rfl⟩).endTwistRun
    have trim := range_ite (p := s.twistPage.target10 = old) ended.trimLow ended.trimHigh
    dsimp only
    split
    · exact (ended.setTrim _ trim ⟨by rfl, by rfl⟩).retarget.openWindow
    · exact (ended.setTrim _ trim ⟨by rfl, by rfl⟩).retarget
  · exact h

theorem switchBank (k p : Nat) : Limited b (Machine.switchBank k p s).1 := by
  have offered := (h.frame (t := switchStates k s) (by simp)).offerRaw (.offerOf .change p)
  have twisted := offered.switchTwist s.twistPage.target10
  unfold Machine.switchBank
  dsimp only
  split
  · exact twisted.switchKnot
  · exact twisted.switchKnot.setMarks _

theorem switchStaged (p : Nat) : Limited b (Machine.switchStaged p s).1 := by
  unfold Machine.switchStaged
  split
  · exact h.switchBank _ _
  · exact h

/-! ## The package former, whose fires may switch the bank -/

section Fires

variable {f : Fire} (keeps : ∀ c k x t, Limited b t → Limited b (f c k x t))
include keeps

theorem placeCut (c : Cut) (x : Nat) : Limited b (Machine.placeCut f c x s) := by
  unfold Machine.placeCut
  split_ifs
  · exact keeps _ _ _ _ h
  · exact h.frame (by simp)
  · exact h.frame (by simp)

theorem moveCut (c : Cut) (rest : List Cut) : Limited b (Machine.moveCut f c rest s) := by
  unfold Machine.moveCut
  split_ifs
  · exact keeps _ _ _ _ (h.setCuts _)
  · exact h.frame (by simp)

theorem cutOut (e : MapEntry) (d : Bool) : Limited b (Machine.cutOut f e d s).1 := by
  unfold Machine.cutOut
  split
  · exact h
  · dsimp only
    split
    · exact h.frame (by simp)
    · exact h.frame (by simp)
    · exact h.frame (by simp)
    · split
      · exact ((h.setCuts _).placeCut keeps _ _).placeCut keeps _ _
      · exact ((h.setCuts _).mapOpen _).placeCut keeps _ _

theorem planIfDue : Limited b (Machine.planIfDue f s) := by
  unfold Machine.planIfDue
  split
  · exact h
  · dsimp only
    split
    · split
      · exact h.placeCut keeps _ _
      · split
        · exact h.cutOut keeps _ _
        · exact (h.cutOut keeps _ _).placeCut keeps _ _
    · exact h

theorem checkPlan : Limited b (Machine.checkPlan f s) := by
  unfold Machine.checkPlan
  split
  · dsimp only
    split
    · exact h
    · split
      · exact h.moveCut keeps _ _
      · exact h.cutOut keeps _ _
  · exact h

theorem retype : Limited b (Machine.retype f s) := by
  unfold Machine.retype
  split
  · exact h
  · dsimp only
    split
    · exact h
    · split
      · exact (h.mapOpen _).setCuts _
      · exact (h.mapOpen _).planIfDue keeps

theorem joinLimit (e : MapEntry) : Limited b (Machine.joinLimit f e s).1 := by
  unfold Machine.joinLimit
  split
  · exact h
  · dsimp only
    split_ifs
    · exact (h.setCuts _).placeCut keeps _ _
    · exact h.cutOut keeps _ _
    · exact h

theorem changeCut (e : MapEntry) : Limited b (Machine.changeCut f e s) := by
  unfold Machine.changeCut
  dsimp only
  split
  · exact h.placeCut keeps _ _
  · split
    · exact (h.setCuts _).placeCut keeps _ _
    · exact h.frame (by simp)

theorem entryInserted (e : MapEntry) : Limited b (Machine.entryInserted f e s) := by
  unfold Machine.entryInserted
  split
  · have cut : Limited b (if (e.severity == .major && cutsOutMajor s) = true
        then (Machine.cutOut f e false s).1 else s) := by
      split
      · exact h.cutOut keeps _ _
      · exact h
    dsimp only
    generalize (if (e.severity == .major && cutsOutMajor s) = true
        then (Machine.cutOut f e false s).1 else s) = c at cut
    have limited : Limited b (if e.kind == .join then Machine.joinLimit f e c else (c, false)).1 := by
      split
      · exact cut.joinLimit keeps _
      · exact cut
    generalize (if e.kind == .join then Machine.joinLimit f e c else (c, false)) = l at limited
    have checked : Limited b (if (e.blocker && !l.2) = true then Machine.checkPlan f l.1 else l.1) := by
      split
      · exact limited.checkPlan keeps
      · exact limited
    split
    · exact checked.changeCut keeps _
    · exact checked
  · exact h

theorem entryUpgraded (e : MapEntry) : Limited b (Machine.entryUpgraded f e s) := by
  unfold Machine.entryUpgraded
  split_ifs
  · exact (h.cutOut keeps _ _).checkPlan keeps
  · exact h.checkPlan keeps
  · exact h

theorem releaseCut (n : Nat) : Limited b (Machine.releaseCut f n s) := by
  unfold Machine.releaseCut
  split
  · exact h
  · split
    · exact h
    · exact h.moveCut keeps _ _

theorem entryClosed (e : MapEntry) : Limited b (Machine.entryClosed f s e) := by
  unfold Machine.entryClosed
  split
  · exact (h.releaseCut keeps _).checkPlan keeps
  · exact h

end Fires

omit h in
/-- What each step of a fold keeps, the fold keeps. -/
theorem foldl {α : Type} {g : State → α → State} (keeps : ∀ t a, Limited b t → Limited b (g t a))
    (l : List α) (h : Limited b s) : Limited b (l.foldl g s) := by
  induction l generalizing s with
  | nil => exact h
  | cons a l ih => exact ih (keeps _ _ h)

omit h in
theorem fireCut (n : Nat) (c : Cut) (k x : Nat) (s : State) (h : Limited b s) :
    Limited b (Machine.fireCut n c k x s) := by
  induction n generalizing c k x s with
  | zero => exact h
  | succ n ih =>
    unfold Machine.fireCut
    split
    · exact h
    · split
      · exact h.retype ih
      · rename_i p _ _
        have closed : Limited b (closeRecord k c.closeReason p (testMarkAt (k - p.startPos)
            (s.setFormer { s.former with cutHigh := true }))) := h.frame (by simp)
        have switched := closed.switchStaged k
        have opened := (switched.openRecord k x).planIfDue ih
        dsimp only
        refine foldl (fun _ e t => t.entryClosed ih e) _ ?_
        split
        · exact opened.raiseSoft _
        · exact opened

omit h in
theorem fire (c : Cut) (k x : Nat) (s : State) (h : Limited b s) : Limited b (Machine.fire c k x s) :=
  fireCut _ c k x s h

theorem fireDue (n : Nat) : Limited b (Machine.fireDue n s) := by
  induction n generalizing s with
  | zero => exact h
  | succ n ih =>
    unfold Machine.fireDue
    split
    · exact h
    · exact ih (fire _ _ _ _ (h.setCuts _))

theorem formerPulse : Limited b (Machine.formerPulse s) := by
  have firmed : Limited b (firmCuts s) := h.frame (by simp)
  unfold Machine.formerPulse
  split
  · exact (firmed.fireDue _).planIfDue fire
  · exact h

theorem offerEntry (e : MapEntry) : Limited b (Machine.offerEntry e s).1 := by
  unfold Machine.offerEntry
  dsimp only
  split
  · exact (h.offerRaw e).entryInserted fire _
  · exact h.offerRaw e

theorem offerPoint (k : EntryKind) : Limited b (Machine.offerPoint k s) := by
  unfold Machine.offerPoint
  dsimp only
  split
  · exact (h.offerLocal k).entryInserted fire _
  · exact h.offerLocal k

omit h in
theorem tell (s : State) (e : Handover) (h : Limited b s) : Limited b (Machine.tell s e) := by
  cases e with
  | inserted e => exact h.entryInserted fire e
  | upgraded e => exact h.entryUpgraded fire e
  | closed e => exact h.entryClosed fire e

theorem tellAll (l : List Handover) : Limited b (Machine.tellAll l s) := foldl tell l h

omit h in
theorem tellClosed {r : State × List MapEntry} (h : Limited b r.1) : Limited b (Machine.tellClosed r) :=
  h.tellAll _

theorem startPackages : Limited b (Machine.startPackages s) := by
  unfold Machine.startPackages
  split
  · exact ((h.setFormer _).openRecord 0 0).planIfDue fire
  · exact h

/-! ## Station control -/

theorem stopTwist : Limited b (Machine.stopTwist s) := by
  unfold Machine.stopTwist
  split
  · exact tellClosed (h.setTwist s.twist.discardWindow ⟨rfl, rfl, rfl⟩).endTwistRun
  · exact h

theorem stopKnot : Limited b (Machine.stopKnot s) := by
  unfold Machine.stopKnot
  split
  · exact tellClosed (h.setKnot _).closeKnotEntries
  · exact h

theorem enterStopped : Limited b (Machine.enterStopped s) := by
  have off : Limited b (clearDwell (s.setStation (s.station.enter .stopped))) := h.frame (by simp)
  have discarded := (off.setPace { (clearDwell (s.setStation (s.station.enter .stopped))).pace with run := 0 }
    (Nat.zero_le _)).stopTwist.stopKnot
  unfold Machine.enterStopped
  dsimp only
  split
  · split
    · exact (discarded.mergeLocal _).refreshPace
    · exact (discarded.offerPoint _).refreshPace
  · exact (discarded.offerPoint _).refreshPace

theorem actLevel (l : Level) : Limited b (Machine.actLevel l s) := by
  unfold Machine.actLevel
  split
  · exact h.actSoft
  · split
    · exact h.stopFromReady
    · exact h.enterStopped
    · exact h.enterStopped
    · exact h

theorem raiseLocal (c : LocalCause) : Limited b (Machine.raiseLocal c s) := by
  unfold Machine.raiseLocal
  split
  · exact ((h.setStation (s.station.takeLocal s.own c)).announce c).actLevel _
  · exact h

theorem takeGo (origin : Nat) : Limited b (Machine.takeGo origin s) := by
  have entered := ((h.setStation (s.station.enter .run)).enqueue (.go origin)).refreshPace.openWindow
  unfold Machine.takeGo
  exact entered.frame (by simp)

/-- Run start clears trim, commanded rate and run pace (R45, R149). -/
theorem clearedBlocks (k : Nat) : Limited b (Machine.clearedBlocks k s) := by
  have start : (banked k s).start = s.start := by simp [banked]
  have offer : s.twist.ownOffer ≤ (banked k s).cfg.ownLimit := by rw [cfg_congr start]; exact h.offer
  have pace : (banked k s).pace.run ≤ (banked k s).cfg.ownLimit := by
    rw [cfg_congr start, banked, setBank_pace]; exact h.run
  have still : Limited b ((banked k s).setTwist s.twist.atRunStart) :=
    ⟨start.trans h.start, (by decide : (-200 : Int) ≤ 0), (by decide : (0 : Int) ≤ 200), Nat.zero_le _,
      offer, pace⟩
  have aimed : Limited b ((banked k s).setTwist (startedTwist k s)) := by
    unfold startedTwist
    split
    · exact still.retarget
    · exact still
  exact (aimed.setPace s.pace.atRunStart (Nat.zero_le _)).frame ⟨rfl, rfl, rfl⟩

theorem startBlocks (k : Nat) : Limited b (Machine.startBlocks k s) := by
  rw [startBlocks_eq]
  split
  · exact (h.clearedBlocks k).startPackages
  · exact (h.clearedBlocks k).setMarks _

theorem startRun (k : Nat) : Limited b (Machine.startRun k s) := by
  unfold Machine.startRun
  dsimp only
  split
  · exact ((h.startBlocks k).changeState _).raiseLocal _
  · exact (h.startBlocks k).changeState _

theorem clearCauses (force : Bool) : Limited b (Machine.clearCauses force s) := by
  unfold Machine.clearCauses
  split
  · exact h
  · exact h.frame (by simp)

theorem takeHalt (e : ListenEntry) (p : PeerHalt) : Limited b (Machine.takeHalt e p s) := by
  unfold Machine.takeHalt
  dsimp only
  split_ifs
  · exact ((h.setStation _).actLevel _).enqueue _
  · exact ((h.setStation _).actLevel _).enqueue _
  · exact h.raiseSoft _
  · exact h

theorem takeResume (x : Nat) : Limited b (Machine.takeResume x s) := by
  unfold Machine.takeResume
  split
  · exact h.frame (by simp)
  · exact h

theorem endRun : Limited b (Machine.endRun s) := by
  unfold Machine.endRun
  dsimp only
  split <;> exact h.frame (by simp)

/-! ## Pulses, strokes and points -/

theorem writeDwell : Limited b (Machine.writeDwell s) := by
  unfold Machine.writeDwell
  split
  · split
    · exact h.mergeLocal _
    · exact h.offerPoint _
  · exact h.offerPoint _

theorem writeJoin : Limited b (Machine.writeJoin s) := by
  unfold Machine.writeJoin
  split
  · split
    · exact h.mergeLocal _
    · exact h.offerPoint _
  · exact h.offerPoint _

theorem beginDwell : Limited b (Machine.beginDwell s) := by
  unfold Machine.beginDwell
  split
  · exact (h.setLength _).writeDwell
  · exact h

theorem runAtMap (k : EntryKind) (start count threshold length : Nat) (now run : Bool) :
    Limited b (Machine.runAtMap k start count threshold length now run s).1 := by
  unfold Machine.runAtMap
  split
  · exact h.frame (by simp)
  · split
    · exact h.offerRaw _
    · exact h

theorem twistRunStep (c : WindowClass) : Limited b (Machine.twistRunStep c s).1 := by
  have flagged (major : Bool) (persistence start count : Nat) (offMajor : Bool) :
      Limited b (Machine.runAtMap .twist start count persistence count major offMajor
        (s.setTwist (s.twist.extendRun major))).1 := (h.setTwist _ ⟨by rfl, by rfl, by rfl⟩).runAtMap _ _ _ _ _ _ _
  unfold Machine.twistRunStep
  split
  · exact h.endTwistRun
  all_goals
    dsimp only
    split
    · exact (flagged _ _ _ _ _).raiseSoft _
    · exact flagged _ _ _ _ _

theorem nextWindow (ran : Bool) (e : Int) (gain : Nat) : Limited b (Machine.nextWindow ran e gain s) := by
  unfold Machine.nextWindow
  split
  · exact (h.setTrim _ (nextTrim_range _ _ _) ⟨by rfl, by rfl⟩).retarget.openWindow
  · exact h.retarget.openWindow

theorem closeWindow (ran : Bool) : Limited b (Machine.closeWindow ran s) := by
  have stored : Limited b (storedWindow s) := h.setTwist _ ⟨rfl, rfl, rfl⟩
  have closed : Limited b (closedWindow ran s) := ((stored.twistRunStep _).nextWindow _ _ _).tellAll _
  rw [closeWindow_eq]
  split
  · exact closed
  · exact closed.switchStaged _

theorem twistPulse (n : Nat) (ran : Bool) : Limited b (Machine.twistPulse n ran s) := by
  have grown : Limited b (s.setTwist { s.twist with width := s.twist.width + n }) := h.setTwist _ ⟨rfl, rfl, rfl⟩
  unfold Machine.twistPulse
  split
  · dsimp only
    split
    · exact grown.closeWindow ran
    · exact grown
  · exact h

theorem spindlePulse : Limited b (Machine.spindlePulse s) := by
  unfold Machine.spindlePulse
  split
  · exact h.setTwist _ ⟨rfl, rfl, rfl⟩
  · exact h

theorem knotRunStep (p : KnotPage) (r : RowResult) : Limited b (Machine.knotRunStep p r s).1 := by
  unfold Machine.knotRunStep
  dsimp only
  split
  · split
    · exact ((h.setKnot _).runAtMap _ _ _ _ _ _ _).raiseSoft _
    · exact (h.setKnot _).runAtMap _ _ _ _ _ _ _
  · exact (h.setKnot _).closeAsHandover _

theorem meshRunStep (p : KnotPage) (r : RowResult) : Limited b (Machine.meshRunStep p r s).1 := by
  unfold Machine.meshRunStep
  dsimp only
  split
  · exact (h.setKnot _).runAtMap _ _ _ _ _ _ _
  · exact (h.setKnot _).closeAsHandover _

theorem closeRow : Limited b (Machine.closeRow s) := by
  have rows (p : KnotPage) (r : RowResult) (k : Knot) : Limited b (Machine.meshRunStep p r
      (Machine.knotRunStep p r (s.setKnot k)).1).1 := ((h.setKnot k).knotRunStep p r).meshRunStep p r
  unfold Machine.closeRow
  dsimp only
  split
  · exact ((rows _ _ _).setKnot _).tellAll _
  · exact (((rows _ _ _).setKnot _).tellAll _).switchStaged _

theorem offerArrival (a : Arrival) : Limited b (Machine.offerArrival s a) := by
  unfold Machine.offerArrival
  split
  · exact h.countDropped
  · exact h.offerEntry _

theorem arrivalsPulse (n : Nat) : Limited b (Machine.arrivalsPulse n s) := by
  unfold Machine.arrivalsPulse
  exact foldl (fun _ a t => t.offerArrival a) _ (h.setPace _ h.run)

theorem joinArrivals (a : Arrival) : Limited b (Machine.joinArrivals a s) := by
  have counted : Limited b (countArrivalDropped s) := h.setPace _ h.run
  unfold Machine.joinArrivals
  split
  · exact h.setPace _ h.run
  · split
    · exact counted
    · split
      · exact (h.setPace _ h.run).setPace _ h.run
      · exact counted.raiseSoft _

theorem acceptHandoff (e : ListenEntry) (r : HandoffRead) : Limited b (Machine.acceptHandoff e r s) := by
  have numbered : Limited b (s.setPace { s.pace with nextAccept := s.pace.nextAccept + 1 }) :=
    h.setPace _ h.run
  unfold Machine.acceptHandoff
  dsimp only
  split
  · exact numbered.offerArrival _
  · exact numbered.joinArrivals _

theorem closeSpan : Limited b (Machine.closeSpan s) := by
  rw [closeSpan_eq]
  dsimp only
  generalize (if slipLimit s < slipOf s.length.la s.length.lb then s.length.badSpans + 1 else 0) = bad
  split
  · split
    · exact (h.setLength _).offerEntry _
    · exact (h.setLength _).raiseSoft _
  · exact h.setLength _

theorem slipPulse (n : Nat) : Limited b (Machine.slipPulse n s) := by
  unfold Machine.slipPulse
  dsimp only
  split_ifs
  · exact h
  · exact (h.setLength _).closeSpan
  · exact h.setLength _

theorem dwellPulse : Limited b (Machine.dwellPulse s) := by
  unfold Machine.dwellPulse
  split
  · exact h.frame (by simp)
  · exact h

theorem advance (n : Nat) : Limited b (Machine.advance n s) := by
  unfold Machine.advance
  dsimp only
  split
  · exact (h.setLength _).raiseSoft _
  · exact h.setLength _

theorem activePulse : Limited b (Machine.activePulse s) := by
  have advanced := h.dwellPulse.advance s.activeStep
  have retained : Limited b (retain s.pos (Machine.advance s.activeStep (Machine.dwellPulse s))) :=
    advanced.frame (by simp)
  have marked : Limited b (beforeArrivals s) :=
    (retained.twistPulse s.activeStep (s.station.state == .run)).formerPulse.testMark
  cases run : s.inRun
  · rwa [activePulse_outside run]
  · rw [activePulse_of_inRun run]
    exact (marked.arrivalsPulse _).slipPulse _

/-! ## The regulation tick -/

theorem tickDwell : Limited b (Machine.tickDwell s) := by
  unfold Machine.tickDwell
  dsimp only
  split_ifs
  · exact (h.setLength _).beginDwell
  · exact h.setLength _
  · exact h

/-- The target pace lies within the own offer, and so does the pace that ramps toward it (R134, R135). -/
theorem tickRamp (aim : s.pace.target ≤ s.cfg.ownLimit) : Limited b (Machine.tickRamp s) := by
  unfold Machine.tickRamp
  split
  · exact h.setPace _ (rampStep_le aim h.run)
  · have eased : Limited b (s.setPace { s.pace with run := s.pace.run - s.cfg.stopRamp }) :=
      h.setPace _ ((Nat.sub_le _ _).trans h.run)
    dsimp only
    split
    · exact eased.enterStopped
    · exact eased
  · exact h

theorem tickPeriod : Limited b (Machine.tickPeriod s) := by
  have fallen : Limited b (s.setPace { s.pace with period := s.pace.period - 1 }) := h.setPace _ h.run
  unfold Machine.tickPeriod
  dsimp only
  split_ifs
  · exact fallen.refreshPace
  · exact fallen
  · exact h

theorem tickPace : Limited b (Machine.tickPace s) := by
  unfold Machine.tickPace
  split
  · set counted := s.setPace { s.pace with listen := mapTable ListenEntry.tick s.pace.listen }
    have offered : Limited b (computeOffers counted) := (h.setPace _ h.run).setPace _ h.run
    have aim : (computeOffers counted).pace.target ≤ (computeOffers counted).cfg.ownLimit := by
      refine le_trans ?_ h.offer
      change (if s.station.state = .run then leastOf s.twist.ownOffer counted.peers else 0) ≤ _
      split
      · exact leastOf_le _ _
      · exact Nat.zero_le _
    exact (offered.tickRamp aim).tickPeriod
  · exact h

theorem tickSetpoint : Limited b (Machine.tickSetpoint s) := by
  have trim := tickSetpoint_trim s
  have rate : (Machine.tickSetpoint s).twist.sCmd ≤ s.cfg.smax := by
    rw [tickSetpoint_sCmd]
    split
    · exact commandRate_le _ _ _
    · exact Nat.zero_le _
  have offer := tickSetpoint_ownOffer s
  exact ⟨h.start, trim ▸ h.trimLow, trim ▸ h.trimHigh, rate, offer.trans_le h.offer, h.run⟩

theorem tick : Limited b (Machine.tick s) := by
  unfold Machine.tick
  split
  · exact h
  · exact h.tickDwell.tickPace.tickSetpoint

/-! ## Frames and requests -/

theorem stageBank (k : Nat) : Limited b (Machine.stageBank k s) := by
  have freed (j : Nat) (x : Bank) : Limited b (s.setBank j x) := h.setBank j x
  unfold Machine.stageBank
  dsimp only
  split
  · split
    · exact (freed _ _).switchBank _ _
    · exact (freed _ _).setBank _ _
  · split
    · exact h.switchBank _ _
    · exact h.setBank _ _

/-- No request leaves the ranges (R190). -/
theorem perform (code : Nat) (args : List Byte) : Limited b (Machine.perform code args s).1 := by
  -- one case for each request code of R190, in the order of the codes
  unfold Machine.perform
  split
  case h_1 => unfold doStatus; dsimp only; (repeat' split) <;> exact h
  case h_2 => unfold doLine; dsimp only; (repeat' split) <;> simp [refuse, h, h.setPly]
  case h_3 => unfold doPeers inService; dsimp only; (repeat' split) <;> exact h
  case h_4 => unfold doMap inService; (repeat' split) <;> exact h
  case h_5 => unfold doPackage inService; (repeat' split) <;> exact h
  case h_6 => unfold doBankRead inService; dsimp only; (repeat' split) <;> exact h
  case h_7 => unfold doBankWrite inService; dsimp only; (repeat' split) <;> simp [refuse, h, h.setBank]
  case h_8 => unfold doRun; (repeat' split) <;> simp [refuse, h, h.startRun]
  case h_9 => unfold doChange; (repeat' split) <;> simp [refuse, h, h.stageBank]
  case h_10 => unfold doGo; (repeat' split) <;> simp [refuse, h, h.takeGo]
  case h_11 => unfold doStop; (repeat' split) <;> simp [refuse, h, h.raiseLocal]
  case h_12 => unfold doClear inService; dsimp only; (repeat' split) <;> simp [refuse, h, h.clearCauses]
  case h_13 => unfold doEnd; (repeat' split) <;> simp [refuse, h, h.endRun]
  case h_14 => unfold doRestart; (repeat' split) <;> simp [refuse, h, h.setStation]
  case h_15 => exact h

theorem askHere (sender tag : Byte) (code : Nat) (args : List Byte) :
    Limited b (Machine.askHere sender tag code args s) := by
  have held : Limited b (holdPlace true s) := h.frame (by simp)
  have performed : Limited b (performAsk code args (holdPlace true s)).1 := by
    unfold performAsk
    split
    · exact held
    · exact held.perform _ _
  unfold Machine.askHere
  split
  · exact performed.frame (by simp)
  · exact h.frame (by simp)

theorem askAll (code : Nat) (args : List Byte) : Limited b (Machine.askAll code args s) := by
  unfold Machine.askAll
  split_ifs
  · exact h
  · exact h.perform _ _
  · exact h.frame (by simp)

theorem takeAsk (f : RxFrame) : Limited b (Machine.takeAsk f s) := by
  unfold Machine.takeAsk
  split
  · split
    · exact h.askAll _ _
    · exact h.askHere _ _ _ _
  · exact h

theorem handOn (kind : BitVec 4) (f : RxFrame) : Limited b (Machine.handOn kind f s) := by
  unfold Machine.handOn
  split_ifs
  · exact h.takeAsk f
  · exact h
  · unfold takePace; split <;> simp [h, h.keepPace]
  · unfold haltFrame; split <;> simp [h, h.takeHalt]
  · unfold resumeFrame; split <;> simp [h, h.takeResume]
  · unfold goFrame; (repeat' split) <;> simp [h, h.takeGo]
  · unfold handoffFrame; dsimp only
    (repeat' split) <;> simp [h.keepPace, h.acceptHandoff]
  · exact h

theorem receive (kind : BitVec 4) (f : RxFrame) : Limited b (Machine.receive kind f s) := by
  unfold Machine.receive
  dsimp only
  split_ifs
  · exact h
  · exact h.setPly _
  · split
    · exact (h.hearFrame _).lineError _ _ _
    · exact h.hearFrame _
    · exact (h.hearFrame _).setPly _
    · exact (h.hearFrame _).handOn _ _

theorem receiveLine (chars : List LineByte) : Limited b (Machine.receiveLine chars s) := by
  unfold Machine.receiveLine receiveBytes
  split_ifs
  · exact h
  · exact h.setPly _
  · exact (h.hearFrame _).lineError _ _ _
  · exact (h.hearFrame _).lineError _ _ _
  · exact h.receive _ _

/-! ## The line's own events -/

theorem reportSent (x : TxBody) : Limited b (Machine.reportSent x s) := by
  unfold Machine.reportSent
  split
  · exact h.setFormer _
  · exact h.setStation _
  · exact h

theorem startAccess : Limited b (Machine.startAccess s) := by
  unfold Machine.startAccess
  (repeat' split) <;> simp [h, h.sendPick]

theorem frameSent : Limited b (Machine.frameSent s) := by
  unfold Machine.frameSent
  split
  · exact (h.setPly _).reportSent _
  · split
    · exact h.setPly _
    · exact h

theorem collide : Limited b (Machine.collide s) := by
  unfold Machine.collide
  dsimp only
  split
  · split
    · exact h.setPly _
    · split
      · exact h.setPly _
      · exact (h.setPly _).reportDrop _
  · exact h

theorem nextInBurst : Limited b (Machine.nextInBurst s) := by
  unfold Machine.nextInBurst
  (repeat' split) <;> simp [h, h.sendPick, h.setPly]

end Limited

/-! ## Every command -/

/-- A command of reset or START: those that write START's block (R197 to R202). -/
def startsOver : Instr → Bool
  | .coldReset | .resetRelease _ | .blockReadAttempt _ | .readRetry | .warmRestart _ => true
  | _ => false

/-- No other command leaves the ranges or changes START's block. -/
theorem exec_limited {b : StartBlock} {c : Instr} {s t : State} (performed : exec c s = .next t)
    (h : Limited b s) (other : startsOver c = false) : Limited b t := by
  cases c <;> cases performed
  case coldReset | resetRelease | blockReadAttempt | readRetry | warmRestart => cases other
  case activeSourcePulse => exact h.activePulse
  case nonActiveSourcePulse => unfold nonActivePulse; (repeat' split) <;> simp [h, h.setLength]
  case spindlePulse => exact h.spindlePulse
  case rowStroke => unfold rowStroke; split <;> simp [h, h.closeRow]
  case sectionEdge => unfold sectionEdge; split <;> simp [h, h.setKnot]
  case jniEdge => unfold jniEdge; split <;> simp [h, h.writeJoin]
  case brkActive => split <;> simp [h, (h.setStation _).raiseLocal _]
  case brkInactive => exact h.setStation _
  case stpEdge => exact h.raiseLocal _
  case staEdge =>
    (repeat' split) <;> simp [h, h.startRun, h.takeGo]
  case clrEdge => split <;> simp [h, h.clearCauses]
  case regulationTick => exact h.tick
  case dwellStart => exact h.beginDwell
  case pacePeriodExpiry => exact h.refreshPace
  case peerStale => unfold staleAt; dsimp only; split <;> simp [h, h.keepPace]
  case markShiftComplete => exact h.setMarks _
  case cutPulseEnd => exact h.setFormer _
  case accessStart => exact h.startAccess
  case frameSent => exact h.frameSent
  case collision => exact h.collide
  case normalHoldTimeout => unfold holdTimeout; split <;> simp [h, h.setPly]
  case receiveError => exact h.receiveLine _
  case burstNextFrame => exact h.nextInBurst
  all_goals exact h.receive _ _

end Sys2Proof.Machine
end

section
/-!
PROOF. Reset and START, until whose end trim's companions are all 0, and the step lemma on the ranges.
-/

namespace Sys2Proof.Machine

open Sys2Proof.Safety

/-! ## Until START is over -/

/-- What LimitsLawful asks of a state until START is over (R46, R150, R174). -/
structure Still (s : State) : Prop where
  state : s.station.state = .start
  run : s.pace.run = 0
  offer : s.twist.ownOffer = 0
  rate : s.twist.sCmd = 0

theorem startStill_iff (s : State) : startStill s ↔ (s.start.phase ≠ .over → Still s) :=
  ⟨fun still starting => let ⟨state, run, offer, rate⟩ := still starting; ⟨state, run, offer, rate⟩,
    fun still starting => let ⟨state, run, offer, rate⟩ := still starting; ⟨state, run, offer, rate⟩⟩

theorem inService_silent {s : State} {act : Performed} (silent : s.station.state.reports = false) :
    inService s act = refuse .state s := by
  simp [inService, silent]

theorem raiseLocal_ignored {s : State} {c : LocalCause} (idle : s.inRun = false) : raiseLocal c s = s := by
  simp [raiseLocal, idle]

namespace Still

variable {s : State}

theorem frame {t : State} (h : Still s)
    (same : t.station.state = s.station.state ∧ t.twist = s.twist ∧ t.pace.run = s.pace.run) : Still t :=
  let ⟨state, twist, pace⟩ := same
  ⟨state.trans h.state, pace.trans h.run, twist ▸ h.offer, twist ▸ h.rate⟩

variable (h : Still s)
include h

theorem setStation (x : Station) (state : x.state = s.station.state) : Still (s.setStation x) :=
  h.frame ⟨state, rfl, rfl⟩
theorem setPly (x : Ply) : Still (s.setPly x) := h.frame (by simp)
theorem setLength (x : Length) : Still (s.setLength x) := h.frame (by simp)
theorem lineError (e : LineError) (x y : Nat) : Still (Machine.lineError e x y s) := h.frame (by simp)
theorem hearFrame (f : RxFate) : Still (Machine.hearFrame f s) := h.frame (by simp)
theorem sendPick (p : Pick) (n : Nat) : Still (Machine.sendPick p n s) := h.frame (by simp)
theorem queueAnswer (d : Nat) (p : List Byte) (r : Bool) : Still (Machine.queueAnswer d p r s) := h.frame (by simp)

theorem inRun : s.inRun = false := by simp [State.inRun, h.state, StationState.inRun]
theorem reports : s.station.state.reports = false := by simp [h.state, StationState.reports]

/-- The values are all 0, so they are in range whatever the configuration. -/
theorem lawful (low : -200 ≤ s.twist.trim) (high : s.twist.trim ≤ 200) : LimitsLawful s := by
  refine ⟨(startStill_iff s).mpr fun _ => h, low, high, ?_, ?_, ?_⟩
  · rw [h.rate]; exact Nat.zero_le _
  · rw [h.offer]; exact Nat.zero_le _
  · rw [h.run]; exact Nat.zero_le _

/-- In START a tick has nothing to do but to command 0 (R38, R130, R197). -/
theorem tick : Still (Machine.tick s) := by
  have dwell : tickDwell s = s := by simp [tickDwell, h.state]
  have pace : tickPace s = s := by simp [tickPace, h.reports]
  unfold Machine.tick
  split
  · exact h
  · rw [dwell, pace]
    refine ⟨h.state, h.run, (tickSetpoint_ownOffer s).trans h.offer, ?_⟩
    rw [tickSetpoint_sCmd]
    simp [h.state, StationState.driven]

/-- In START no request has an effect on the run, the drive or the pace (R190). -/
theorem perform (code : Nat) (args : List Byte) : Still (Machine.perform code args s).1 := by
  have idle := h.inRun
  have silent := h.reports
  have state := h.state
  -- one case for each request code of R190, in the order of the codes
  unfold Machine.perform
  split
  case h_1 => unfold doStatus; dsimp only; (repeat' split) <;> exact h
  case h_2 => unfold doLine; dsimp only; (repeat' split) <;> exact h.frame ⟨rfl, rfl, rfl⟩
  case h_3 => unfold doPeers; simp only [inService_silent silent]; (repeat' split) <;> exact h
  case h_4 => unfold doMap; simp only [inService_silent silent]; split <;> exact h
  case h_5 => unfold doPackage; simp only [inService_silent silent]; (repeat' split) <;> exact h
  case h_6 => unfold doBankRead; simp only [inService_silent silent]; (repeat' split) <;> exact h
  case h_7 => unfold doBankWrite; simp only [inService_silent silent]; (repeat' split) <;> exact h
  case h_8 => simp only [doRun, state]; (repeat' split) <;> simp_all [refuse]
  case h_9 => simp only [doChange, idle]; (repeat' split) <;> simp_all [refuse]
  case h_10 => simp only [doGo, state]; (repeat' split) <;> simp_all [refuse]
  case h_11 => simp only [doStop, idle]; (repeat' split) <;> simp_all [refuse]
  case h_12 => unfold doClear; simp only [inService_silent silent]; (repeat' split) <;> exact h
  case h_13 => simp only [doEnd, state]; (repeat' split) <;> simp_all [refuse]
  case h_14 => simp only [doRestart, state]; (repeat' split) <;> simp_all [refuse]
  case h_15 => exact h

theorem takeAsk (f : RxFrame) : Still (Machine.takeAsk f s) := by
  have held : Still (holdPlace true s) := h.frame (by simp)
  have performed (code : Nat) (args : List Byte) : Still (performAsk code args (holdPlace true s)).1 := by
    unfold performAsk
    split
    · exact held
    · exact held.perform _ _
  unfold Machine.takeAsk askAll askHere
  (repeat' split)
  · exact h
  · exact h.perform _ _
  · exact h.frame (by simp)
  · exact (performed _ _).queueAnswer _ _ _
  · exact h.frame (by simp)
  · exact h

theorem receive (kind : BitVec 4) (f : RxFrame) : Still (Machine.receive kind f s) := by
  have handed (fate : RxFate) : Still (handOn kind f (Machine.hearFrame fate s)) := by
    unfold handOn
    split
    · exact (h.hearFrame fate).takeAsk f
    · simpa [h.reports] using h.hearFrame fate
  unfold Machine.receive
  dsimp only
  (repeat' split) 
  · exact h
  · exact h.setPly _
  · exact (h.hearFrame _).lineError _ _ _
  · exact h.hearFrame _
  · exact (h.hearFrame _).setPly _
  · exact handed _

theorem receiveLine (chars : List LineByte) : Still (Machine.receiveLine chars s) := by
  unfold Machine.receiveLine receiveBytes
  split_ifs
  · exact h
  · exact h.setPly _
  · exact (h.hearFrame _).lineError _ _ _
  · exact (h.hearFrame _).lineError _ _ _
  · exact h.receive _ _

theorem reportDrop (x : TxBody) : Still (Machine.reportDrop x s) := by
  unfold Machine.reportDrop; split <;> exact h.frame ⟨rfl, rfl, rfl⟩
theorem reportSent (x : TxBody) : Still (Machine.reportSent x s) := by
  unfold Machine.reportSent; split <;> exact h.frame ⟨rfl, rfl, rfl⟩

theorem startAccess : Still (Machine.startAccess s) := by
  unfold Machine.startAccess; (repeat' split) <;> simp [h, h.sendPick]

theorem frameSent : Still (Machine.frameSent s) := by
  unfold Machine.frameSent
  split
  · exact (h.setPly _).reportSent _
  · split
    · exact h.setPly _
    · exact h

theorem collide : Still (Machine.collide s) := by
  unfold Machine.collide
  dsimp only
  split
  · split
    · exact h.setPly _
    · split
      · exact h.setPly _
      · exact (h.setPly _).reportDrop _
  · exact h

theorem nextInBurst : Still (Machine.nextInBurst s) := by
  unfold Machine.nextInBurst; (repeat' split) <;> simp [h, h.sendPick, h.setPly]

end Still

/-- In START no command but those of reset and START has an effect on what `Still` names. -/
theorem exec_still {c : Instr} {s t : State} (performed : exec c s = .next t) (h : Still s)
    (other : startsOver c = false) : Still t := by
  have idle := h.inRun
  have notRun : s.station.state ≠ .run := by simp [h.state]
  cases c <;> cases performed
  case coldReset | resetRelease | blockReadAttempt | readRetry | warmRestart => cases other
  case activeSourcePulse => rwa [activePulse_outside idle]
  case nonActiveSourcePulse => simpa [nonActivePulse, idle] using h
  case spindlePulse => unfold spindlePulse; split <;> exact ⟨h.state, h.run, h.offer, h.rate⟩
  case rowStroke => simpa [rowStroke, h.state, StationState.driven] using h
  case sectionEdge => unfold sectionEdge; split <;> exact h.frame ⟨rfl, rfl, rfl⟩
  case jniEdge => simpa [jniEdge, idle] using h
  case brkActive =>
    split
    · exact h
    · have raised : Still (s.setStation { s.station with brkActive := true }) := h.setStation _ rfl
      rwa [raiseLocal_ignored raised.inRun]
  case brkInactive => exact h.setStation _ rfl
  case stpEdge => rwa [raiseLocal_ignored idle]
  case staEdge => simpa [h.state] using h
  case clrEdge => simpa [idle] using h
  case regulationTick => exact h.tick
  case dwellStart => rwa [beginDwell_ignored (.inl notRun)]
  case pacePeriodExpiry => exact h.frame (by simp)
  case peerStale => unfold staleAt; dsimp only; split <;> exact h.frame ⟨rfl, rfl, rfl⟩
  case markShiftComplete => exact h.frame ⟨rfl, rfl, rfl⟩
  case cutPulseEnd => exact h.frame ⟨rfl, rfl, rfl⟩
  case accessStart => exact h.startAccess
  case frameSent => exact h.frameSent
  case collision => exact h.collide
  case normalHoldTimeout => unfold holdTimeout; split <;> exact h.frame ⟨rfl, rfl, rfl⟩
  case receiveError => exact h.receiveLine _
  case burstNextFrame => exact h.nextInBurst
  all_goals exact h.receive _ _

/-! ## Reset and START -/

theorem coldReset_limitsLawful (s : State) : LimitsLawful (coldReset s) :=
  Still.lawful ⟨rfl, rfl, rfl, rfl⟩ (by decide : (-200 : Int) ≤ 0) (by decide : (0 : Int) ≤ 200)

theorem warmRestart_limitsLawful (straps : Straps) (s : State) : LimitsLawful (warmRestart straps s) :=
  Still.lawful ⟨rfl, rfl, rfl, rfl⟩ (by decide : (-200 : Int) ≤ 0) (by decide : (0 : Int) ≤ 200)

/-- START in HELD (R203). -/
theorem toHeld_limitsLawful {s : State} (h : Still s) (low : -200 ≤ s.twist.trim) (high : s.twist.trim ≤ 200)
    (r : StartReason) : LimitsLawful (toHeld r s) := by
  obtain ⟨-, -, -, rate, offer, run⟩ := h.lawful low high
  exact ⟨fun starting => absurd rfl starting, low, high, rate, offer, run⟩

/-- START ends in IDLE with the own offer at the own pace limit (R202). -/
theorem toIdle_limitsLawful {s : State} (h : Still s) (low : -200 ≤ s.twist.trim) (high : s.twist.trim ≤ 200) :
    LimitsLawful (toIdle s) := by
  obtain ⟨-, -, -, rate, -, run⟩ := h.lawful low high
  have ended : (toIdle s).start.phase = .over := by simp [toIdle]
  have cfg : (toIdle s).cfg = s.cfg := by simp [toIdle, State.cfg]
  refine ⟨fun starting => absurd ended starting, ?_⟩
  rw [cfg]
  simp only [toIdle, changeState_twist, changeState_run]
  exact ⟨low, high, rate, le_rfl, run⟩

theorem judgeBlock_limitsLawful {s : State} (h : Still s) (low : -200 ≤ s.twist.trim)
    (high : s.twist.trim ≤ 200) (bs : List Byte) : LimitsLawful (judgeBlock bs s) := by
  have read : Still (s.setStart { s.start with image := some bs }) := h.frame ⟨rfl, rfl, rfl⟩
  have taken : Still (takeValues bs (s.setStart { s.start with image := some bs })) :=
    h.frame (by simp [takeValues])
  have trim : (takeValues bs (s.setStart { s.start with image := some bs })).twist.trim = s.twist.trim := by
    simp [takeValues]
  unfold judgeBlock
  dsimp only
  split_ifs
  · exact toHeld_limitsLawful read low high _
  · exact toHeld_limitsLawful read low high _
  · exact toIdle_limitsLawful taken (trim ▸ low) (trim ▸ high)
  · exact toHeld_limitsLawful taken (trim ▸ low) (trim ▸ high) _

theorem readAttempt_limitsLawful {s : State} (lawful : LimitsLawful s) (r : ReadResult) :
    LimitsLawful (readAttempt r s) := by
  unfold readAttempt
  split
  · rename_i attempting
    have ⟨still, low, high, _⟩ := lawful
    have h : Still (s.setStart (s.start.attempted r)) :=
      ((startStill_iff s).mp still (by simp [attempting])).frame ⟨rfl, rfl, rfl⟩
    dsimp only
    split
    · exact judgeBlock_limitsLawful h low high _
    all_goals
      split
      · exact Still.lawful (h.frame ⟨rfl, rfl, rfl⟩) low high
      · exact toHeld_limitsLawful h low high _
  · exact lawful

/-- A command of reset or START keeps the ranges: until START is over the values are 0. -/
theorem exec_startsOver {c : Instr} {s t : State} (performed : exec c s = .next t) (lawful : LimitsLawful s)
    (starts : startsOver c = true) : LimitsLawful t := by
  have ⟨still, low, high, _⟩ := lawful
  have begins (b : StartBlock) (starting : s.start.phase ≠ .over) : LimitsLawful (s.setStart b) :=
    Still.lawful (((startStill_iff s).mp still starting).frame ⟨rfl, rfl, rfl⟩) low high
  cases c <;> cases performed
  case coldReset => exact coldReset_limitsLawful s
  case resetRelease =>
    unfold releaseReset
    split
    · rename_i inReset
      exact begins _ (by simp [inReset])
    · exact lawful
  case blockReadAttempt => exact readAttempt_limitsLawful lawful _
  case readRetry =>
    unfold retryRead
    split
    · rename_i waiting
      exact begins _ (by simp [waiting])
    · exact lawful
  case warmRestart =>
    unfold takeWarmRestart
    split
    · exact warmRestart_limitsLawful _ s
    · exact lawful
  all_goals cases starts

theorem exec_limitsLawful {c : Instr} {s t : State} (performed : exec c s = .next t)
    (lawful : LimitsLawful s) : LimitsLawful t := by
  cases starts : startsOver c
  · obtain ⟨still, limited⟩ := (limitsLawful_iff s).mp lawful
    have limited := exec_limited performed limited starts
    have start := limited.start
    refine (limitsLawful_iff t).mpr ⟨(startStill_iff t).mpr fun starting => ?_, start ▸ limited⟩
    exact exec_still performed ((startStill_iff s).mp still (start ▸ starting)) starts
  · exact exec_startsOver performed lawful starts

/-- Settles O54: a waiting command keeps the ranges, and an idle slot of the line touches none of them. -/
theorem stepsKeepTheLimits : Obligations.StepsKeepTheLimits := by
  intro s t lawful stepped
  unfold step at stepped
  split at stepped
  · cases stepped
    unfold idleSlot
    split <;> exact lawful
  · exact exec_limitsLawful stepped lawful

end Sys2Proof.Machine
end

section
/-!
PROOF. The close of a twist window does not see, before the switch, whether a bank is STAGED or LOADED: each
operation up to there commutes with `unstaged`.
-/

namespace Sys2Proof.Machine

open Sys2Proof.Safety

/-! ## The close of a window does not see that a bank is STAGED -/

/-- A bank with a STAGED mark taken back to LOADED. -/
def Bank.unstage (b : Bank) : Bank := if b.state = .staged then { b with state := .loaded } else b

theorem Bank.unstage_state (b : Bank) : b.unstage.state = if b.state = .staged then .loaded else b.state := by
  unfold Bank.unstage; split <;> rfl
@[simp] theorem Bank.unstage_twist (b : Bank) : b.unstage.twist = b.twist := by
  unfold Bank.unstage; split <;> rfl
@[simp] theorem Bank.unstage_package (b : Bank) : b.unstage.package = b.package := by
  unfold Bank.unstage; split <;> rfl

theorem unstaged_banks (s : State) : (unstaged s).banks = s.banks.map Bank.unstage := rfl

theorem unstaged_bank (s : State) (k : Nat) : (unstaged s).bank k = (s.bank k).unstage := by
  simp only [State.bank, unstaged_banks, Vector.toList_map]
  exact List.getD_map _ Bank.reset Bank.unstage

/-- The banks in a state other than STAGED and LOADED are the same. -/
@[simp] theorem unstaged_activeBank (s : State) : (unstaged s).activeBank = s.activeBank := by
  simp only [State.activeBank, State.bankIn, unstaged_banks, Vector.toList_map, List.findIdx?_map]
  congr 1
  funext b
  simp only [Function.comp, Bank.unstage_state]
  cases b.state <;> rfl

theorem unstaged_stagedBank (s : State) : (unstaged s).stagedBank = none := by
  simp only [State.stagedBank, State.bankIn, unstaged_banks, Vector.toList_map, List.findIdx?_map,
    List.findIdx?_eq_none_iff, Function.comp, Bank.unstage_state]
  intro b _
  cases b.state <;> rfl

@[simp] theorem unstaged_twistPage (s : State) : (unstaged s).twistPage = s.twistPage := by
  simp [State.twistPage, unstaged_bank]
@[simp] theorem unstaged_packagePage (s : State) (k : Nat) : (unstaged s).packagePage k = s.packagePage k := by
  simp [State.packagePage, unstaged_bank]
@[simp] theorem unstaged_activePackagePage (s : State) :
    (unstaged s).activePackagePage = s.activePackagePage := by
  simp [State.activePackagePage]

@[simp] theorem unstaged_cfg (s : State) : (unstaged s).cfg = s.cfg := rfl
@[simp] theorem unstaged_own (s : State) : (unstaged s).own = s.own := rfl
@[simp] theorem unstaged_station (s : State) : (unstaged s).station = s.station := rfl
@[simp] theorem unstaged_length (s : State) : (unstaged s).length = s.length := rfl
@[simp] theorem unstaged_twist (s : State) : (unstaged s).twist = s.twist := rfl
@[simp] theorem unstaged_knot (s : State) : (unstaged s).knot = s.knot := rfl
@[simp] theorem unstaged_map (s : State) : (unstaged s).map = s.map := rfl
@[simp] theorem unstaged_pace (s : State) : (unstaged s).pace = s.pace := rfl
@[simp] theorem unstaged_ply (s : State) : (unstaged s).ply = s.ply := rfl
@[simp] theorem unstaged_pos (s : State) : (unstaged s).pos = s.pos := rfl
@[simp] theorem unstaged_peers (s : State) : (unstaged s).peers = s.peers := rfl
@[simp] theorem unstaged_isLaying (s : State) : (unstaged s).isLaying = s.isLaying := rfl
@[simp] theorem unstaged_inRun (s : State) : (unstaged s).inRun = s.inRun := rfl
@[simp] theorem unstaged_openEntry (s : State) (k : EntryKind) : (unstaged s).openEntry k = s.openEntry k := rfl

@[simp] theorem setStation_unstaged (s : State) (b : Station) :
    (unstaged s).setStation b = unstaged (s.setStation b) := rfl
@[simp] theorem setLength_unstaged (s : State) (b : Length) :
    (unstaged s).setLength b = unstaged (s.setLength b) := rfl
@[simp] theorem setTwist_unstaged (s : State) (b : Twist) :
    (unstaged s).setTwist b = unstaged (s.setTwist b) := rfl
@[simp] theorem setKnot_unstaged (s : State) (b : Knot) :
    (unstaged s).setKnot b = unstaged (s.setKnot b) := rfl
@[simp] theorem setMap_unstaged (s : State) (b : RunMap) :
    (unstaged s).setMap b = unstaged (s.setMap b) := rfl
@[simp] theorem setPace_unstaged (s : State) (b : Pace) :
    (unstaged s).setPace b = unstaged (s.setPace b) := rfl
@[simp] theorem setPly_unstaged (s : State) (b : Ply) :
    (unstaged s).setPly b = unstaged (s.setPly b) := rfl

@[simp] theorem buildReport_unstaged (s : State) : buildReport (unstaged s) = buildReport s := by
  simp [buildReport]
@[simp] theorem refreshPace_unstaged (s : State) : refreshPace (unstaged s) = unstaged (refreshPace s) := by
  simp only [refreshPace, unstaged_station, unstaged_ply, unstaged_pace, unstaged_cfg, buildReport_unstaged]
  split <;> rfl
@[simp] theorem reportDrop_unstaged (b : TxBody) (s : State) :
    reportDrop b (unstaged s) = unstaged (reportDrop b s) := by
  cases b with
  | answer dest payload owned => cases owned <;> rfl
  | halt | resume | go | handoff | pkg => rfl
@[simp] theorem enqueue_unstaged (b : TxBody) (s : State) : enqueue b (unstaged s) = unstaged (enqueue b s) := by
  simp only [enqueue, unstaged_ply, setPly_unstaged, reportDrop_unstaged]
  (repeat' split) <;> rfl
@[simp] theorem changeState_unstaged (t : StationState) (s : State) :
    changeState t (unstaged s) = unstaged (changeState t s) := by
  simp [changeState]
@[simp] theorem clearDwell_unstaged (s : State) : clearDwell (unstaged s) = unstaged (clearDwell s) := by
  cases dwelling : s.length.dwelling <;> simp [clearDwell, dwelling]
@[simp] theorem stopFromReady_unstaged (s : State) :
    stopFromReady (unstaged s) = unstaged (stopFromReady s) := by
  simp [stopFromReady]
@[simp] theorem ease_unstaged (s : State) : ease (unstaged s) = unstaged (ease s) := by
  simp [ease]
@[simp] theorem announce_unstaged (c : LocalCause) (s : State) :
    announce c (unstaged s) = unstaged (announce c s) := by
  simp only [announce, unstaged_station, unstaged_own, enqueue_unstaged]
  split <;> rfl
@[simp] theorem actSoft_unstaged (s : State) : actSoft (unstaged s) = unstaged (actSoft s) := by
  simp only [actSoft, unstaged_station, stopFromReady_unstaged, ease_unstaged]
  (repeat' split) <;> rfl
@[simp] theorem raiseSoft_unstaged (c : LocalCause) (s : State) :
    raiseSoft c (unstaged s) = unstaged (raiseSoft c s) := by
  simp only [raiseSoft, unstaged_inRun, unstaged_station, unstaged_own, setStation_unstaged, announce_unstaged,
    actSoft_unstaged]
  split <;> rfl

@[simp] theorem handOff_unstaged (e : MapEntry) (s : State) :
    handOff e (unstaged s) = unstaged (handOff e s) := by
  simp only [handOff, unstaged_peers, unstaged_own]
  exact List.foldl_hom unstaged (fun t p => enqueue_unstaged _ t)
@[simp] theorem placeEntry_unstaged (e : MapEntry) (l : List MapEntry) (b : Bool) (s : State) :
    placeEntry e l b (unstaged s) = unstaged (placeEntry e l b s) := by
  simp only [placeEntry, unstaged_map, setMap_unstaged, handOff_unstaged]
  (repeat' split) <;> rfl
@[simp] theorem countDropped_unstaged (s : State) : countDropped (unstaged s) = unstaged (countDropped s) := rfl
@[simp] theorem offerRaw_unstaged (e : MapEntry) (s : State) :
    offerRaw e (unstaged s) = (unstaged (offerRaw e s).1, (offerRaw e s).2) := by
  simp only [offerRaw, unstaged_map, placeEntry_unstaged, countDropped_unstaged, raiseSoft_unstaged]
  split <;> rfl
@[simp] theorem extendEntry_unstaged (k : EntryKind) (endPos count : Nat) (major : Bool) (s : State) :
    extendEntry k endPos count major (unstaged s) =
      (unstaged (extendEntry k endPos count major s).1, (extendEntry k endPos count major s).2) := by
  simp only [extendEntry, unstaged_openEntry]
  split <;> rfl
@[simp] theorem closeEntry_unstaged (k : EntryKind) (s : State) :
    closeEntry k (unstaged s) = (unstaged (closeEntry k s).1, (closeEntry k s).2) := by
  simp only [closeEntry, unstaged_openEntry, unstaged_map, setMap_unstaged, handOff_unstaged]
  split <;> rfl
@[simp] theorem runAtMap_unstaged (kind : EntryKind) (start count threshold length : Nat) (now run : Bool)
    (s : State) : runAtMap kind start count threshold length now run (unstaged s) =
      (unstaged (runAtMap kind start count threshold length now run s).1,
        (runAtMap kind start count threshold length now run s).2) := by
  simp only [runAtMap, unstaged_openEntry, unstaged_pos, extendEntry_unstaged, offerRaw_unstaged]
  (repeat' split) <;> rfl
@[simp] theorem twistRunStep_unstaged (c : WindowClass) (s : State) :
    twistRunStep c (unstaged s) = (unstaged (twistRunStep c s).1, (twistRunStep c s).2) := by
  cases c <;>
    simp [twistRunStep, endTwistRun, apply_ite unstaged]

@[simp] theorem retarget_unstaged (s : State) : retarget (unstaged s) = unstaged (retarget s) := by
  simp [retarget, balancingFeeders, ownOfferNow]
@[simp] theorem openWindow_unstaged (s : State) : openWindow (unstaged s) = unstaged (openWindow s) := by
  cases kind : s.isLaying <;> simp [openWindow, kind]

/-- Steps 1 to 8 of R24 are the same with the bank STAGED and LOADED. -/
theorem evaluatedWindow_unstaged (s : State) :
    evaluatedWindow (unstaged s) = (unstaged (evaluatedWindow s).1, (evaluatedWindow s).2) := by
  simp [evaluatedWindow, storedWindow, windowT10, windowD10, windowE, windowClass]
theorem nextWindow_unstaged (ran : Bool) (e : Int) (gain : Nat) (s : State) :
    nextWindow ran e gain (unstaged s) = unstaged (nextWindow ran e gain s) := by
  cases ran <;> simp [nextWindow]

end Sys2Proof.Machine
end

section
/-!
PROOF. The close of a twist window on a station that forms no packages: the evaluation, the next window, and the
switch to the one STAGED bank.
-/

namespace Sys2Proof.Machine

open Sys2Proof.Safety

/-! ## A station that forms no packages has nothing to tell the former -/

theorem tell_of_not_forming {s : State} (plain : s.cfg.forming = false) (h : Handover) : tell s h = s := by
  cases h with
  | inserted e => exact entryInserted_of_not_forming plain _ e
  | upgraded e => simp [tell, entryUpgraded, State.forming, plain]
  | closed e => simp [tell, entryClosed, State.forming, plain]

theorem tellAll_of_not_forming {s : State} (plain : s.cfg.forming = false) (hs : List Handover) :
    tellAll hs s = s := by
  induction hs with
  | nil => rfl
  | cons h hs ih => rw [tellAll, List.foldl_cons, tell_of_not_forming plain]; exact ih

theorem formerPulse_of_not_forming {s : State} (plain : s.cfg.forming = false) : formerPulse s = s := by
  simp [formerPulse, State.forming, plain]

/-- The window evaluated, the trim set and the next window opened, before the former and the switch (R24). -/
def settledWindow (ran : Bool) (s : State) : State :=
  nextWindow ran (windowE s) s.twistPage.gain (evaluatedWindow s).1

theorem evaluatedWindow_calm {β : Type} {view : State → β} (h : Calm view) (s : State) :
    view (evaluatedWindow s).1 = view s := by
  rw [evaluatedWindow, h.twistRunStep, storedWindow, h.twist]

theorem settledWindow_calm {β : Type} {view : State → β} (h : Calm view) (ran : Bool) (s : State) :
    view (settledWindow ran s) = view s := by
  cases ran <;> simp [settledWindow, nextWindow, evaluatedWindow_calm h, h.openWindow, h.retarget, h.twist]

@[simp] theorem twistRunStep_banks (c : WindowClass) (s : State) : (twistRunStep c s).1.banks = s.banks := by
  have atMap (k : EntryKind) (start count threshold length : Nat) (now run : Bool) (s : State) :
      (runAtMap k start count threshold length now run s).1.banks = s.banks := by
    unfold runAtMap; (repeat' split) <;> simp
  cases c <;> simp [twistRunStep, endTwistRun, apply_ite State.banks, atMap]
@[simp] theorem evaluatedWindow_banks (s : State) : (evaluatedWindow s).1.banks = s.banks := by
  simp [evaluatedWindow, storedWindow]
@[simp] theorem settledWindow_banks (ran : Bool) (s : State) : (settledWindow ran s).banks = s.banks := by
  cases ran <;> simp [settledWindow, nextWindow]

theorem closeWindow_of_not_forming {s : State} (plain : s.cfg.forming = false) (ran : Bool) :
    closeWindow ran s = (switchStaged s.pos (settledWindow ran s)).1 := by
  have start : (settledWindow ran s).start = s.start := settledWindow_calm calm_start ran s
  have pos : (settledWindow ran s).pos = s.pos := pos_congr (settledWindow_calm calm_acc ran s)
  have still : (settledWindow ran s).cfg.forming = false := by rw [cfg_congr start, plain]
  have closed : closedWindow ran s = settledWindow ran s := tellAll_of_not_forming still _
  rw [closeWindow_eq, closed, pos, State.forming, still, if_neg Bool.false_ne_true]

theorem stagedBank_congr {s t : State} (banks : t.banks = s.banks) : t.stagedBank = s.stagedBank := by
  rw [State.stagedBank, State.bankIn, banks]; rfl
theorem activeBank_congr {s t : State} (banks : t.banks = s.banks) : t.activeBank = s.activeBank := by
  rw [State.activeBank, State.bankIn, banks]; rfl
theorem twistPage_congr {s t : State} (banks : t.banks = s.banks) : t.twistPage = s.twistPage := by
  simp only [State.twistPage, activeBank_congr banks, State.bank, banks]

theorem closeWindow_of_none_staged {s : State} (plain : s.cfg.forming = false) (none : s.stagedBank = none)
    (ran : Bool) : closeWindow ran s = settledWindow ran s := by
  rw [closeWindow_of_not_forming plain, switchStaged, stagedBank_congr (settledWindow_banks ran s), none]

/-! ## The switch to the one STAGED bank (R123, R124) -/

theorem settledWindow_unstaged (ran : Bool) (s : State) :
    settledWindow ran (unstaged s) = unstaged (settledWindow ran s) := by
  have e : windowE (unstaged s) = windowE s := by simp [windowE, windowD10, windowT10]
  rw [settledWindow, settledWindow, evaluatedWindow_unstaged, e, unstaged_twistPage, nextWindow_unstaged]

/-- Two places of a list at which a predicate holds are the same place if it holds at one at most. -/
theorem index_unique_of_countP_le_one {α : Type} {p : α → Bool} {l : List α} (one : l.countP p ≤ 1) {i j : Nat}
    (hi : i < l.length) (hj : j < l.length) (pi : p l[i] = true) (pj : p l[j] = true) : i = j := by
  induction l generalizing i j with
  | nil => exact absurd hi (Nat.not_lt_zero _)
  | cons x l ih =>
    have rest (n : Nat) (hn : n < l.length) (pn : p l[n] = true) : 0 < l.countP p :=
      List.countP_pos_iff.mpr ⟨_, List.getElem_mem hn, pn⟩
    rw [List.countP_cons] at one
    match i, j with
    | 0, 0 => rfl
    | 0, j + 1 =>
      have head : p x = true := by simpa using pi
      have := rest j (by simpa using hj) (by simpa using pj)
      rw [if_pos head] at one; omega
    | i + 1, 0 =>
      have head : p x = true := by simpa using pj
      have := rest i (by simpa using hi) (by simpa using pi)
      rw [if_pos head] at one; omega
    | i + 1, j + 1 =>
      exact congrArg _ (ih (by omega) (by simpa using hi) (by simpa using hj) (by simpa using pi)
        (by simpa using pj))

theorem stagedBank_lt {s : State} {k : Nat} (staged : s.stagedBank = some k) : k < 4 := by
  obtain ⟨hk, -⟩ := List.findIdx?_eq_some_iff_getElem.mp staged
  simpa using hk

theorem bank_eq_getElem (s : State) {k : Nat} (hk : k < 4) : s.bank k = s.banks[k] := by
  simp [State.bank, List.getD, hk]

theorem bank_setBank (s : State) (k : Nat) (b : Bank) (i : Nat) :
    (s.setBank k b).bank i = if i = k ∧ k < 4 then b else s.bank i := by
  by_cases hk : k < 4
  · by_cases here : i = k
    · subst here; simp [State.bank, State.setBank, hk]
    · simp [State.bank, State.setBank, hk, here, Vector.getElem?_set_ne _ (Ne.symm here)]
  · simp [State.setBank, hk]

/-- No bank other than `k` is STAGED. -/
def OnlyStaged (k : Nat) (s : State) : Prop := ∀ i, i < 4 → i ≠ k → (s.bank i).state ≠ .staged

theorem onlyStaged_of_countP {s : State} {k : Nat} (staged : s.stagedBank = some k)
    (one : s.banks.toList.countP (fun b => b.state == .staged) ≤ 1) : OnlyStaged k s := by
  intro i hi other there
  obtain ⟨hk, here, -⟩ := List.findIdx?_eq_some_iff_getElem.mp staged
  rw [bank_eq_getElem s hi] at there
  exact other (index_unique_of_countP_le_one one (by simpa using hi) hk (by simpa using there) here)

theorem OnlyStaged.setBank {s : State} {k : Nat} (only : OnlyStaged k s) (a : Nat) {b : Bank}
    (free : b.state ≠ .staged) : OnlyStaged k (s.setBank a b) := by
  intro i hi other
  rw [bank_setBank]
  split
  · exact free
  · exact only i hi other

theorem setBank_unstaged (s : State) (k : Nat) {b : Bank} (free : b.state ≠ .staged) :
    (unstaged s).setBank k b = unstaged (s.setBank k b) := by
  have fixed : b.unstage = b := if_neg free
  unfold State.setBank
  split
  · rename_i hk
    have banks : (s.banks.set k b).map Bank.unstage = (s.banks.map Bank.unstage).set k b := by
      rw [Vector.map_set, fixed]
    change (unstaged s).setBanks ((s.banks.map Bank.unstage).set k b) =
      (unstaged s).setBanks ((s.banks.set k b).map Bank.unstage)
    rw [banks]
  · rfl

/-- With `k` made ACTIVE nothing tells that it was STAGED. -/
theorem banked_unstaged {s : State} {k : Nat} (hk : k < 4) (only : OnlyStaged k s) :
    banked k (unstaged s) = banked k s := by
  have same (b : Bank) : ({ b.unstage with state := .active } : Bank) = { b with state := .active } := by
    unfold Bank.unstage; split <;> rfl
  have banks (b : Bank) : (unstaged s).banks.set k b = s.banks.set k b := by
    ext i hi
    rw [Vector.getElem_set, Vector.getElem_set]
    split
    · rfl
    · rename_i other
      rw [unstaged_banks, Vector.getElem_map]
      exact if_neg (bank_eq_getElem s hi ▸ only i hi (Ne.symm other))
  rw [banked, banked, unstaged_bank, same, State.setBank, State.setBank, dif_pos hk, dif_pos hk, banks]
  rfl

theorem switchStates_unstaged {s : State} {k : Nat} (staged : s.stagedBank = some k)
    (one : s.banks.toList.countP (fun b => b.state == .staged) ≤ 1) :
    switchStates k (unstaged s) = switchStates k s := by
  have hk : k < 4 := stagedBank_lt staged
  have only : OnlyStaged k s := onlyStaged_of_countP staged one
  simp only [switchStates, unstaged_activeBank]
  cases s.activeBank with
  | none => exact banked_unstaged hk only
  | some a =>
    have loaded (b : Bank) : ({ b with state := .loaded } : Bank).state ≠ .staged := by simp
    have same (b : Bank) : ({ b.unstage with state := .loaded } : Bank) = { b with state := .loaded } := by
      unfold Bank.unstage; split <;> rfl
    have freed : (unstaged s).setBank a { (unstaged s).bank a with state := .loaded } =
        unstaged (s.setBank a { s.bank a with state := .loaded }) := by
      rw [unstaged_bank, same, setBank_unstaged s a (loaded _)]
    simp only [freed]
    exact banked_unstaged hk (only.setBank a (loaded _))

theorem closeWindow_of_staged {s : State} {k : Nat} (plain : s.cfg.forming = false)
    (staged : s.stagedBank = some k) (one : s.banks.toList.countP (fun b => b.state == .staged) ≤ 1)
    (ran : Bool) : closeWindow ran s = (switchBank k s.pos (closeWindow ran (unstaged s))).1 := by
  have stands : (settledWindow ran s).stagedBank = some k :=
    (stagedBank_congr (settledWindow_banks ran s)).trans staged
  have alike : switchStates k (unstaged (settledWindow ran s)) = switchStates k (settledWindow ran s) :=
    switchStates_unstaged stands (by rwa [settledWindow_banks])
  rw [closeWindow_of_none_staged (s := unstaged s) plain (unstaged_stagedBank s), settledWindow_unstaged,
    closeWindow_of_not_forming plain, switchStaged, stands]
  simp only [switchBank, alike, unstaged_twistPage]

end Sys2Proof.Machine
end

section
/-!
PROOF. What a pulse and the close of a twist window do on a LAYING station that forms no packages.
-/

namespace Sys2Proof.Machine

open Sys2Proof.Safety

/-! ## The balance of the feeders (R35, R36) -/

/-- A listen entry that the balance counts (R35). -/
def ListenEntry.counts (e : ListenEntry) : Bool :=
  e.status == .peer && e.role == .feed && e.weight != 0 && !e.stale
    && (match e.lastReport with
      | some r => decide (1 ≤ r.windowCount)
      | none => false)

/-- The deviation of a listen entry's last report, 0 without one. -/
def ListenEntry.lastD10 (e : ListenEntry) : Int :=
  match e.lastReport with
  | some r => r.lastD10
  | none => 0

theorem ListenEntry.balancing_eq (e : ListenEntry) :
    e.balancing = if e.counts then some (e.lastD10, e.weight) else none := by
  unfold ListenEntry.balancing ListenEntry.counts ListenEntry.lastD10
  cases e.lastReport <;> simp

/-- The listen entries that the balance counts, in listen table order (R35). -/
def State.counted (s : State) : List ListenEntry := s.pace.listen.toList.filter ListenEntry.counts

theorem balancingFeeders_eq (s : State) :
    balancingFeeders s = s.counted.map (fun e => (e.lastD10, e.weight)) := by
  unfold balancingFeeders State.counted
  induction s.pace.listen.toList with
  | nil => rfl
  | cons e l ih =>
    cases counts : e.counts with
    | false => simpa [ListenEntry.balancing_eq, counts] using ih
    | true => simpa [ListenEntry.balancing_eq, counts] using ih

theorem aimOf_eq (target10 : Nat) (s : State) :
    aimOf target10 s =
      (max (5 : Int) (clampInt ((target10 : Int) - (target10 : Int) * 100 / 1000)
        ((target10 : Int) + (target10 : Int) * 100 / 1000)
        ((target10 : Int) - if s.counted = [] then 0
          else ((s.counted.map (fun e : ListenEntry => e.lastD10 * e.weight)).sum).tdiv
            (100 * (s.counted.length : Int))))).toNat :=
  rfl

/-- The effective target of a LAYING station (R36). -/
theorem balance_balancingFeeders (target10 : Nat) (s : State) :
    balance target10 (balancingFeeders s) = aimOf target10 s := by
  rw [aimOf_eq, balancingFeeders_eq, balance]
  simp [Function.comp_def]

/-! ## The next window (R33, R36, R37, R40, R22) -/

/-- Twist regulation with trim, eff10 and own offer set and the next window open at `pos`. -/
def Twist.settle (ran : Bool) (e : Int) (gain aim pos : Nat) (cfg : Settings) (t : Twist) : Twist :=
  let trim := if ran then nextTrim t.trim e gain else t.trim
  { t with
    trim, eff10 := some aim, ownOffer := offerOf cfg.ownLimit cfg.smax aim trim
    windowOpen := true, pulses := 0, width := 0, windowStart := pos }

theorem retarget_of_laying {s : State} (kind : s.cfg.kind = .laying) :
    retarget s = s.setTwist { s.twist with
      eff10 := some (aimOf s.twistPage.target10 s)
      ownOffer := offerOf s.cfg.ownLimit s.cfg.smax (aimOf s.twistPage.target10 s) s.twist.trim } := by
  simp [retarget, ownOfferNow, State.isLaying, kind, balance_balancingFeeders]

theorem openWindow_of_laying {s : State} (kind : s.cfg.kind = .laying) :
    openWindow s = s.setTwist (s.twist.openWindow s.pos) := by
  simp [openWindow, State.isLaying, kind]

theorem nextWindow_of_laying {s : State} (kind : s.cfg.kind = .laying) (ran : Bool) (e : Int) (gain : Nat) :
    nextWindow ran e gain s =
      s.setTwist (s.twist.settle ran e gain (aimOf s.twistPage.target10 s) s.pos s.cfg) := by
  have next (t : State) (laying : t.cfg.kind = .laying) : openWindow (retarget t) =
      t.setTwist (t.twist.settle false e gain (aimOf t.twistPage.target10 t) t.pos t.cfg) := by
    rw [openWindow_of_laying (by rwa [cfg_congr (retarget_start t)]), retarget_of_laying laying]
    rfl
  cases ran with
  | false => exact next s kind
  | true => exact next (s.setTwist _) kind

/-- After an evaluation that leaves the banks, the position, START's block and the listen table. -/
theorem settledWindow_of_laying {s : State} (kind : s.cfg.kind = .laying) (ran : Bool) :
    settledWindow ran s = (evaluatedWindow s).1.setTwist ((evaluatedWindow s).1.twist.settle ran (windowE s)
      s.twistPage.gain (aimOf s.twistPage.target10 s) s.pos s.cfg) := by
  have start : (evaluatedWindow s).1.start = s.start := evaluatedWindow_calm calm_start s
  have pos : (evaluatedWindow s).1.pos = s.pos := pos_congr (evaluatedWindow_calm calm_acc s)
  have page : (evaluatedWindow s).1.twistPage = s.twistPage := twistPage_congr (evaluatedWindow_banks s)
  have listen : (evaluatedWindow s).1.pace.listen = s.pace.listen := evaluatedWindow_calm calm_listen s
  have aim (n : Nat) : aimOf n (evaluatedWindow s).1 = aimOf n s := by simp only [aimOf, listen]
  rw [settledWindow, nextWindow_of_laying (by rwa [cfg_congr start]), cfg_congr start, pos, page, aim]

/-! ## The runs of flagged windows at the map (R29 to R31) -/

theorem openEntry_isSome (s : State) (k : EntryKind) :
    (s.openEntry k).isSome = s.map.entries.any (fun e => e.isOpen && e.kind == k) := by
  rw [State.openEntry, List.isSome_find?]

theorem runAtMap_of_room {s : State} (room : s.map.entries.length < Config.mapCapacity) (kind : EntryKind)
    (start count threshold length : Nat) (now run : Bool) :
    (runAtMap kind start count threshold length now run s).1 = s.setMap { s.map with
      entries := runLogged kind true now run start count length threshold s.pos s.map.entries } := by
  have held : (s.openEntry kind).isSome = s.map.entries.any (fun e => e.isOpen && e.kind == kind) :=
    openEntry_isSome s kind
  have flagged : ¬ true = false := Bool.noConfusion
  rw [runAtMap, runLogged, held, if_neg flagged]
  by_cases found : s.map.entries.any (fun e => e.isOpen && e.kind == kind) = true
  · obtain ⟨old, opened⟩ := Option.isSome_iff_exists.mp (held.trans found)
    rw [if_pos found, if_pos found]
    simp only [extendEntry, opened]
    rfl
  · rw [if_neg found, if_neg found]
    by_cases reached : threshold ≤ length
    · simp [reached, offerRaw, weighOffer, room, placeEntry, runEntry]
    · rw [if_neg reached, if_neg reached]
      rfl

theorem handOff_setTwist (e : MapEntry) (s : State) (t : Twist) :
    handOff e (s.setTwist t) = (handOff e s).setTwist t := by
  have drop (b : TxBody) (s : State) : reportDrop b (s.setTwist t) = (reportDrop b s).setTwist t := by
    unfold reportDrop; split <;> rfl
  have ply (b : Ply) (s : State) : (s.setTwist t).setPly b = (s.setPly b).setTwist t := rfl
  have queue (b : TxBody) (s : State) : enqueue b (s.setTwist t) = (enqueue b s).setTwist t := by
    simp only [enqueue, State.setTwist_ply, ply, drop]
    (repeat' split) <;> rfl
  exact List.foldl_hom (fun s : State => s.setTwist t) (fun s p => queue _ s)

end Sys2Proof.Machine
end

section
/-!
PROOF. A pulse on a LAYING station and the close of its twist window.
-/

namespace Sys2Proof.Machine

open Sys2Proof.Safety

/-! ## The pulse and the width of the window (R24) -/

theorem retain_movedByPulse {s : State} (plain : s.cfg.forming = false) :
    retain s.pos (movedByPulse s) = { movedByPulse s with map := { s.map with entries := keptByPulse s } } := by
  have cfg : (movedByPulse s).cfg = s.cfg := cfg_congr (by simp)
  have pos : (movedByPulse s).pos = accAfterPulse s / 1000 := by simp [State.pos]
  rw [retain_of_plain (by rw [cfg, plain])]
  simp only [movedByPulse_map, pos, cfg]
  rfl

/-- A window that is open grows by the step, and closes at Lw (R24). -/
theorem twistPulse_of_laying {s : State} (kind : s.cfg.kind = .laying) (step : Nat) (ran : Bool) :
    twistPulse step ran s =
      if s.twist.windowOpen = false then s
      else if s.twist.width + step < s.twistPage.lw * 1000 then
        s.setTwist { s.twist with width := s.twist.width + step }
      else closeWindow ran (s.setTwist { s.twist with width := s.twist.width + step }) := by
  unfold twistPulse
  cases opened : s.twist.windowOpen with
  | false => simp
  | true =>
    by_cases short : s.twist.width + step < s.twistPage.lw * 1000
    · simp [State.isLaying, kind, short, not_le.mpr short]
    · simp [State.isLaying, kind, short, not_lt.mp short]

/-- A pulse on a station with neither former nor check source and with nothing on its way (R1, R11, R82). -/
theorem activePulse_of_not_forming {s : State} (plain : s.cfg.forming = false) (unchecked : s.cfg.stepB = 0)
    (clear : s.pace.arrivals = []) (run : s.inRun = true) (within : withinRunLimit s) :
    activePulse s = testMark (twistPulse s.activeStep (s.station.state == .run)
      { movedByPulse s with map := { s.map with entries := keptByPulse s } }) := by
  have start : (beforeArrivals s).start = s.start := calm_start.beforeArrivals (fun _ _ => rfl) s
  have arrivals : (beforeArrivals s).pace.arrivals = [] := (beforeArrivals_arrivals s).trans clear
  rw [activePulse_of_inRun run, arrivalsPulse_of_none arrivals,
    slipPulse_of_no_check (by rw [cfg_congr start, unchecked]), beforeArrivals, advance_dwellPulse, if_pos within,
    retain_movedByPulse plain, formerPulse_of_not_forming]
  rw [cfg_congr (calm_start.twistPulse _ _ _)]
  exact (congrArg (·.forming) (cfg_congr (movedByPulse_start s))).trans plain

theorem activeSourcePulse_of_laying {s : State} (kind : s.cfg.kind = .laying) (plain : s.cfg.forming = false)
    (unchecked : s.cfg.stepB = 0) (clear : s.pace.arrivals = []) (run : s.inRun = true)
    (within : withinRunLimit s) :
    let width := s.twist.width + s.activeStep
    let moved := { movedByPulse s with map := { s.map with entries := keptByPulse s } }
    let grown := { moved with twist := { s.twist with width := width } }
    let t := if s.twist.windowOpen = false then moved
      else if width < s.twistPage.lw * 1000 then grown
      else closeWindow (decide (s.station.state = .run)) grown
    activePulse s = { t with marks := marksAt t.pos t.marks } := by
  intro width moved grown t
  have cfg : moved.cfg = s.cfg := cfg_congr (movedByPulse_start s)
  have page : moved.twistPage = s.twistPage := twistPage_congr (movedByPulse_banks s)
  have twist : moved.twist = s.twist := movedByPulse_twist s
  have pulsed : twistPulse s.activeStep (s.station.state == .run) moved = t := by
    rw [twistPulse_of_laying (by rw [cfg, kind]), twist, page, beq_eq_decide]
    rfl
  have still : t.cfg.forming = false := by
    rw [← pulsed, cfg_congr (calm_start.twistPulse _ _ _), cfg, plain]
  rw [activePulse_of_not_forming plain unchecked clear run within, pulsed, testMark_of_plain still]
  rfl

/-! ## The evaluation of the window (R25 to R32) -/

theorem closeEntry_of_none {s : State} {k : EntryKind} (none : s.openEntry k = none) :
    closeEntry k s = (s, .none) := by
  simp [closeEntry, none]

/-- The open entry closes in the map and is handed off (R69, R79 to R81). -/
theorem closeEntry_of_open {s : State} {k : EntryKind} {x : MapEntry} (found : s.openEntry k = some x) :
    closeEntry k s = (handOff x.closed (s.setMap { s.map with
      entries := runLogged k false false false 0 0 0 0 s.pos s.map.entries }), some x.closed) := by
  simp [closeEntry, found, runLogged, MapEntry.closed]

theorem evaluatedWindow_of_inTol {s : State} (tol : windowClass s = .inTol) :
    (evaluatedWindow s).1 = (closeEntry .twist (s.setTwist
      (s.twist.store (windowT10 s) (windowD10 s) (windowE s) .inTol).endRun)).1 := by
  rw [evaluatedWindow, storedWindow, tol]
  rfl

theorem Twist.extendRun_eq (major : Bool) (t : Twist) :
    t.extendRun major = { t with
      offRun := min 255 (t.offRun + 1)
      offStart := if t.offRun = 0 then t.windowStart else t.offStart
      offMajor := major || (decide (t.offRun ≠ 0) && t.offMajor)
      majorRun := if major then min 255 (t.majorRun + 1) else 0 } := by
  have started : (t.offRun != 0) = decide (t.offRun ≠ 0) := by simp [bne, beq_eq_decide]
  rw [Twist.extendRun, started]
  rfl

/-- The twist results and the run after a MINOR or MAJOR close (R28, R29, R32). -/
def offTwist (major : Bool) (s : State) : Twist :=
  (s.twist.store (windowT10 s) (windowD10 s) (windowE s) (if major then .major else .minor)).extendRun major

/-- The run of MINOR and MAJOR windows in results and map (R29, R30). -/
def offLogged (major : Bool) (s : State) : State :=
  (s.setTwist (offTwist major s)).setMap { s.map with
    entries := runLogged .twist true major (offTwist major s).offMajor (offTwist major s).offStart
      (offTwist major s).offRun (offTwist major s).offRun s.twistPage.persistence s.pos s.map.entries }

theorem twistRunStep_of_off (major : Bool) (s : State) :
    (twistRunStep (if major then .major else .minor) s).1 =
      let t := s.twist.extendRun major
      let r := (runAtMap .twist t.offStart t.offRun s.twistPage.persistence t.offRun major t.offMajor
        (s.setTwist t)).1
      if major = true ∧ s.twistPage.persistence ≤ t.majorRun then raiseSoft .twistLimit r else r := by
  cases major with
  | false =>
    have minor : (WindowClass.minor == .major) = false := rfl
    simp [twistRunStep, minor]
  | true => simp [twistRunStep]

theorem evaluatedWindow_of_off {s : State} {major : Bool} (room : s.map.entries.length < Config.mapCapacity)
    (off : windowClass s = if major then .major else .minor) :
    (evaluatedWindow s).1 = if major = true ∧ s.twistPage.persistence ≤ (offTwist major s).majorRun then
      raiseSoft .twistLimit (offLogged major s) else offLogged major s := by
  have atMap : (runAtMap .twist (offTwist major s).offStart (offTwist major s).offRun s.twistPage.persistence
      (offTwist major s).offRun major (offTwist major s).offMajor (s.setTwist (offTwist major s))).1 =
      offLogged major s := runAtMap_of_room (s := s.setTwist (offTwist major s)) room _ _ _ _ _ _ _
  rw [evaluatedWindow, off, twistRunStep_of_off, ← atMap, storedWindow, off]
  rfl

/-! ## The close without a STAGED bank -/

/-- The twist regulation that a close leaves, from what its evaluation left (R33, R36, R37, R40). -/
def Twist.closed (ran : Bool) (s : State) (t : Twist) : Twist :=
  t.settle ran (windowE s) s.twistPage.gain (aimOf s.twistPage.target10 s) s.pos s.cfg

/-- A window within tolerance with no TWIST entry open (R31). -/
theorem settledWindow_of_inTol {s : State} (kind : s.cfg.kind = .laying) (tol : windowClass s = .inTol)
    (none : s.openEntry .twist = none) (ran : Bool) :
    settledWindow ran s =
      s.setTwist ((s.twist.store (windowT10 s) (windowD10 s) (windowE s) .inTol).endRun.closed ran s) := by
  have ended : (evaluatedWindow s).1 =
      s.setTwist (s.twist.store (windowT10 s) (windowD10 s) (windowE s) .inTol).endRun := by
    rw [evaluatedWindow_of_inTol tol, closeEntry_of_none]
    exact none
  rw [settledWindow_of_laying kind, ended]
  rfl

/-- A window within tolerance closes the open TWIST entry and hands it off (R31). -/
theorem settledWindow_of_inTol_open {s : State} {x : MapEntry} (kind : s.cfg.kind = .laying)
    (tol : windowClass s = .inTol) (found : s.openEntry .twist = some x) (ran : Bool) :
    settledWindow ran s = handOff x.closed { s with
      twist := (s.twist.store (windowT10 s) (windowD10 s) (windowE s) .inTol).endRun.closed ran s
      map := { s.map with
        entries := runLogged .twist false false false 0 0 0 0 s.pos s.map.entries } } := by
  have ended : (evaluatedWindow s).1 = handOff x.closed
      ((s.setTwist (s.twist.store (windowT10 s) (windowD10 s) (windowE s) .inTol).endRun).setMap { s.map with
        entries := runLogged .twist false false false 0 0 0 0 s.pos s.map.entries }) := by
    rw [evaluatedWindow_of_inTol tol, closeEntry_of_open (x := x)]
    · rfl
    · exact found
  rw [settledWindow_of_laying kind, ended, ← handOff_setTwist, handOff_twist]
  rfl

/-- A MINOR or MAJOR window that raises nothing (R29, R30). -/
theorem settledWindow_of_off {s : State} {major : Bool} (kind : s.cfg.kind = .laying)
    (room : s.map.entries.length < Config.mapCapacity)
    (off : windowClass s = if major then .major else .minor)
    (short : major = false ∨ (offTwist major s).majorRun < s.twistPage.persistence) (ran : Bool) :
    settledWindow ran s = (offLogged major s).setTwist ((offTwist major s).closed ran s) := by
  have unraised : ¬ (major = true ∧ s.twistPage.persistence ≤ (offTwist major s).majorRun) := by
    rintro ⟨isMajor, long⟩
    rcases short with minor | short
    · exact absurd isMajor (by simp [minor])
    · omega
  rw [settledWindow_of_laying kind, evaluatedWindow_of_off room off, if_neg unraised]
  rfl

/-- A MAJOR window that reaches the persistence raises TWIST_LIMIT (R32). -/
theorem settledWindow_of_limit {s : State} {major : Bool} (kind : s.cfg.kind = .laying)
    (room : s.map.entries.length < Config.mapCapacity)
    (off : windowClass s = if major then .major else .minor) (isMajor : major = true)
    (long : s.twistPage.persistence ≤ (offTwist major s).majorRun) (ran : Bool) :
    settledWindow ran s =
      (raiseSoft .twistLimit (offLogged major s)).setTwist ((offTwist major s).closed ran s) := by
  rw [settledWindow_of_laying kind, evaluatedWindow_of_off room off, if_pos ⟨isMajor, long⟩, raiseSoft_twist]
  rfl

end Sys2Proof.Machine
end

section
/-!
PROOF. The obligation about the twist window: its close on a LAYING station that forms no packages.
-/

namespace Sys2Proof.Machine

open Sys2Proof.Safety

/-! ## What a queued frame leaves of the station (R158, R183) -/

/-- Of the station a queued frame changes at most that the ANSWER to a RESTART has gone. -/
theorem reportDrop_station (b : TxBody) (s : State) :
    ∃ gone, (reportDrop b s).station = { s.station with answerGone := gone } := by
  cases b with
  | answer dest payload owned =>
    cases owned with
    | false => exact ⟨s.station.answerGone, rfl⟩
    | true => exact ⟨true, rfl⟩
  | halt | resume | go | handoff | pkg => exact ⟨s.station.answerGone, rfl⟩

theorem enqueue_station (b : TxBody) (s : State) :
    ∃ gone, (enqueue b s).station = { s.station with answerGone := gone } := by
  unfold enqueue
  dsimp only
  (repeat' split)
  · exact ⟨s.station.answerGone, rfl⟩
  all_goals exact reportDrop_station _ _

theorem announce_station (c : LocalCause) (s : State) :
    ∃ gone, (announce c s).station = { s.station with answerGone := gone } := by
  unfold announce
  split
  case h_4 => exact ⟨s.station.answerGone, rfl⟩
  all_goals exact enqueue_station _ _

theorem Station.softened_of_run {st : Station} (run : st.state = .run) (free : st.hardHeld = false) :
    st.softened = st.enter .easing := by
  simp [Station.softened, run, free]

/-- A new SOFT cause eases a station that runs unheld and lights ALM (R153, R160). -/
theorem raiseSoft_of_running {s : State} {c : LocalCause} (soft : c.level = .soft)
    (running : s.station.state = .run) (free : s.station.hardHeld = false) (new : c ∉ s.station.locals) :
    (raiseSoft c s).station.state = .easing ∧ (raiseSoft c s).station.alm = true := by
  have run : s.inRun = true := by simp [State.inRun, running, StationState.inRun]
  obtain ⟨gone, station⟩ := announce_station c (s.setStation (s.station.takeLocal s.own c))
  have held : (s.station.takeLocal s.own c).hardHeld = false :=
    (Station.hardHeld_takeLocal soft _ _).trans free
  rw [raiseSoft_of_new run new, actSoft_station, station, State.setStation_station]
  rw [Station.softened_of_run (st := { s.station.takeLocal s.own c with answerGone := gone }) running held]
  exact ⟨rfl, rfl⟩

/-- Settles O16: the pulse as far as the close, the close up to the switch, and the close by its class. -/
theorem windowClosingInToleranceStoresAndTrims : Obligations.WindowClosingInToleranceStoresAndTrims := by
  refine ⟨fun s kind plain unchecked clear run within => ?pulse,
    fun s k ran kind plain lawful staged => ?switch, fun s eff ran kind plain none aimed => ?close⟩
  case pulse =>
    rw [exec_activeSourcePulse, activeSourcePulse_of_laying kind plain unchecked clear run within]
  case switch =>
    obtain ⟨-, -, one⟩ := lawful
    exact closeWindow_of_staged plain staged (one.trans (by cases s.inRun <;> decide)) ran
  case close =>
    intro t10 d10 e trim aim persistence major run start offMajor majorRun stored settled extended logged
    have sameE : windowE s = e := by rw [windowE, windowD10, aimed]; rfl
    have sameD : windowD10 s = d10 := by rw [windowD10, aimed]; rfl
    have tol (within : e.natAbs ≤ s.twistPage.tolM) : windowClass s = .inTol := by
      rw [windowClass, sameE, classify_inTol within]
    have off (wide : s.twistPage.tolM < e.natAbs) : windowClass s = if major then .major else .minor := by
      rw [windowClass, sameE, classify_off wide]
      exact ite_congr (by simp [major]) (fun _ => rfl) (fun _ => rfl)
    have settledTwist :
        (s.twist.store (windowT10 s) (windowD10 s) (windowE s) .inTol).endRun.closed ran s = settled := by
      rw [Twist.closed, sameE, sameD]; rfl
    have longer : offTwist major s = { s.twist.store t10 d10 e (if major then .major else .minor) with
        offRun := run, offStart := start, offMajor := offMajor, majorRun := majorRun } := by
      rw [offTwist, sameE, sameD, Twist.extendRun_eq]; rfl
    have extendedTwist : (offTwist major s).closed ran s = extended := by
      rw [longer, Twist.closed, sameE]; rfl
    have loggedMap : (offLogged major s).map = { s.map with entries := logged } := by
      rw [offLogged, longer]; rfl
    rw [closeWindow_of_none_staged plain none]
    refine ⟨fun within clear => ?inTol, fun x within found => ?opened,
      fun wide room => ⟨fun short => ?unraised, fun beyond long inRun => ?limit⟩⟩
    case inTol =>
      rw [settledWindow_of_inTol kind (tol within) clear, settledTwist]; rfl
    case opened =>
      rw [settledWindow_of_inTol_open kind (tol within) found, settledTwist]; rfl
    case unraised =>
      rw [settledWindow_of_off kind room (off wide) short, extendedTwist, offLogged, longer]; rfl
    case limit =>
      have reached : s.twistPage.persistence ≤ (offTwist major s).majorRun := by rw [longer]; exact long
      rw [settledWindow_of_limit kind room (off wide) beyond reached, extendedTwist]
      exact ⟨mem_locals_raiseSoft .twistLimit inRun, rfl, (raiseSoft_map _ _).trans loggedMap,
        raiseSoft_of_running (s := offLogged major s) rfl⟩

end Sys2Proof.Machine
end

section
/-!
PROOF. The blocks at run start: the ACTIVE bank, the first package, and what its opening leaves alone.
-/

namespace Sys2Proof.Machine

open Sys2Proof.Safety

/-! ## The ACTIVE bank at run start (R120, R125) -/

theorem banked_bank {k : Nat} (hk : k < 4) (s : State) :
    (banked k s).bank k = { s.bank k with state := .active } := by
  simp [banked, bank_setBank, hk]

theorem banked_bank_other {k j : Nat} (other : j ≠ k) (s : State) : (banked k s).bank j = s.bank j := by
  simp [banked, bank_setBank, other]

theorem banked_packagePage {k : Nat} (hk : k < 4) (s : State) :
    (banked k s).packagePage k = s.packagePage k := by
  rw [State.packagePage, banked_bank hk]; rfl

/-- Without a run no bank is ACTIVE (R125). -/
theorem inactive_of_lawful {s : State} (lawful : BankLawful s) (idle : s.station.state = .idle) {i : Nat}
    (hi : i < 4) : (s.bank i).state ≠ .active := by
  obtain ⟨-, none, -⟩ := lawful
  have out : s.inRun = false := by rw [State.inRun, idle]; rfl
  rw [out] at none
  have inactive := List.countP_eq_zero.mp none s.banks[i] (by simp)
  rw [bank_eq_getElem s hi]
  simpa using inactive

/-- Of banks none of which was ACTIVE the one made so is the ACTIVE bank. -/
theorem banked_activeBank {s : State} {k : Nat} (hk : k < 4)
    (inactive : ∀ i, i < 4 → (s.bank i).state ≠ .active) : (banked k s).activeBank = some k := by
  have getElem (i : Nat) (hi : i < 4) :
      (banked k s).banks.toList[i]'(by simpa using hi) = (banked k s).bank i := by
    rw [bank_eq_getElem _ hi, Vector.getElem_toList]
  rw [State.activeBank, State.bankIn, List.findIdx?_eq_some_iff_getElem]
  refine ⟨by simpa using hk, ?_, fun j before => ?_⟩
  · rw [getElem k hk, banked_bank hk]; rfl
  · rw [getElem j (before.trans hk), banked_bank_other before.ne]
    simpa using inactive j (before.trans hk)

/-! ## The first package (R91, R92, R113) -/

/-- No record of the package table is OPEN. -/
def NoneOpen (f : Former) : Prop := ∀ r ∈ f.table, r.state ≠ .opened

/-- Without a run no package is open (R91). -/
theorem noneOpen_of_lawful {s : State} (lawful : PackageLawful s) (idle : s.station.state = .idle) :
    NoneOpen s.former := by
  obtain ⟨-, -, none⟩ := lawful
  have out : (s.inRun && s.forming) = false := by rw [State.inRun, idle]; rfl
  rw [out] at none
  intro r mem
  simpa using List.countP_eq_zero.mp none r mem

/-- Room is made by taking out at most one record, and no numbers are used (R92). -/
theorem makeRoom_spec (f : Former) :
    f.makeRoom.table.Sublist f.table ∧ f.makeRoom.nextNumber = f.nextNumber ∧ f.makeRoom.cuts = f.cuts := by
  have taken {p : PackageRecord → Bool} {r : PackageRecord} {rest : List PackageRecord}
      (found : takeFirst p f.table = some (r, rest)) : rest.Sublist f.table := by
    obtain ⟨pre, post, table, rfl, -, -⟩ := takeFirst_some found
    rw [table]
    exact (List.sublist_cons_self r post).append_left pre
  unfold Former.makeRoom
  split
  · exact ⟨.refl _, rfl, rfl⟩
  · split
    · exact ⟨taken ‹_›, rfl, rfl⟩
    · split
      · exact ⟨taken ‹_›, rfl, rfl⟩
      · exact ⟨.refl _, rfl, rfl⟩

/-- The record of the package that opens at run start with bank `k`. -/
def firstRecord (k : Nat) (s : State) : PackageRecord :=
  { number := s.former.nextNumber, type := .normal, bank := k
    productCode := (s.packagePage k).productCode, startPos := 0, endPos := none, joinCount := 0
    joins := [], defects := [], defectsDropped := 0, grade := none, reason := none
    state := .opened, report := none }

theorem openRecord_marks {s : State} {k : Nat} (active : s.activeBank = some k) (position extra : Nat) :
    (openRecord position extra s).marks = s.marks.restart (s.packagePage k).markInterval := by
  simp [openRecord, active]

theorem openRecord_openPackage {s : State} {k : Nat} (active : s.activeBank = some k)
    (none : NoneOpen s.former) (uncut : s.former.cuts = []) :
    (openRecord 0 0 s).openPackage = some (firstRecord k s) := by
  obtain ⟨sub, number, cuts⟩ := makeRoom_spec s.former
  have before : s.former.makeRoom.table.find? (fun r => r.state == .opened) = Option.none :=
    List.find?_eq_none.mpr fun r mem => by simpa using none r (sub.subset mem)
  simp [State.openPackage, openRecord, active, List.find?_append, before, number, cuts, uncut, typeOf,
    firstRecord]

/-! ## The first plan (R97) -/

/-- At position 0, with no cut pending and nothing in the map, a plan that is due is entered in the list: it
fires at no length, and nothing comes of that. -/
theorem planIfDue_of_clear {s : State} (start : s.pos = 0) (uncut : s.former.cuts = [])
    (clear : s.map.entries = []) : ∃ cuts, planIfDue fire s = setCuts cuts s := by
  have same : setCuts [] s = s := by rw [← uncut]; rfl
  cases opened : s.openPackage with
  | none => exact ⟨[], by rw [planIfDue, opened, same]⟩
  | some p =>
    simp only [planIfDue, opened]
    split
    · rename_i due
      obtain ⟨normal, -⟩ := due
      have placed (c : Nat) : ∃ cuts, placeCut fire (planCut c) 0 s = setCuts cuts s := by
        unfold placeCut
        split
        · have fired : fire (planCut c) (s.pos - s.cfg.cutterOffset) 0 s = retype (fireCut 5) s := by
            rw [fire, fireDepth, fireCut, opened, start]
            simp
          have kept : retype (fireCut 5) s = s := by
            simp [retype, opened, uncut, typeOf, normal]
          exact ⟨[], by rw [fired, kept, same]⟩
        · rw [if_pos (by simp [uncut, Config.cutCapacity])]
          exact ⟨_, rfl⟩
      simp only [resolvePlan, blockersAt, clear, List.filter_nil]
      exact placed _
    · exact ⟨[], same.symm⟩

/-! ## The blocks at run start -/

theorem clearedBlocks_start (k : Nat) (s : State) : (clearedBlocks k s).start = s.start := by
  simp [clearedBlocks, banked]
theorem clearedBlocks_station (k : Nat) (s : State) : (clearedBlocks k s).station = s.station := by
  simp [clearedBlocks, banked]
theorem clearedBlocks_former (k : Nat) (s : State) : (clearedBlocks k s).former = s.former := by
  simp [clearedBlocks, banked]

/-- The blocks at run start are the cleared ones with the former's first package and the marks restarted
(R15, R113, R151). -/
theorem startBlocks_shape (k : Nat) (s : State) : ∃ f m,
    startBlocks k s = ((clearedBlocks k s).setFormer f).setMarks m ∧ m.skipped = 0 ∧
    ((banked k s).activeBank = some k →
      m = ({ s.marks with skipped := 0 } : Marks).restart ((banked k s).packagePage k).markInterval ∧
      (s.cfg.forming = true → NoneOpen s.former →
        f.table.find? (fun r => r.state == .opened) = some (firstRecord k (banked k s)))) := by
  rw [startBlocks_eq]
  cases forms : s.forming with
  | false =>
    refine ⟨(clearedBlocks k s).former, _, rfl, rfl, fun active => ⟨?_, fun forming _ => ?_⟩⟩
    · have there : (clearedBlocks k s).activeBank = some k := active
      rw [State.activePackagePage, there]
      rfl
    · exact absurd (forms.symm.trans forming) Bool.false_ne_true
  | true =>
    have forming : (clearedBlocks k s).forming = true := by
      rw [State.forming, cfg_congr (clearedBlocks_start k s)]; exact forms
    let emptied := (clearedBlocks k s).setFormer { (clearedBlocks k s).former with cuts := [], cutsRefused := 0 }
    obtain ⟨-, -, uncut⟩ := makeRoom_spec emptied.former
    obtain ⟨cuts, planned⟩ := planIfDue_of_clear (s := openRecord 0 0 emptied) (Nat.zero_div 1000) uncut rfl
    refine ⟨{ (openRecord 0 0 emptied).former with cuts }, (openRecord 0 0 emptied).marks, ?_, rfl,
      fun active => ⟨openRecord_marks (s := emptied) active 0 0, fun _ none => ?_⟩⟩
    · simp only [startPackages, forming, if_true]
      exact planned
    · have clear : NoneOpen emptied.former := by
        have same : (clearedBlocks k s).former.table = s.former.table := by rw [clearedBlocks_former]
        exact fun r mem => none r (same ▸ mem)
      exact openRecord_openPackage (s := emptied) active clear rfl

end Sys2Proof.Machine
end

section
/-!
PROOF. Run start by STA and RUN(k): the blocks, and the transition out of IDLE that keeps them.
-/

namespace Sys2Proof.Machine

open Sys2Proof.Safety

/-! ## The transition at run start keeps the blocks (R151) -/

theorem reportDrop_openPackage (b : TxBody) (s : State) : (reportDrop b s).openPackage = s.openPackage := by
  cases b with
  | pkg p =>
    simp only [reportDrop, State.openPackage, State.setFormer_former, Former.markReport, List.find?_map]
    have same : ((fun r : PackageRecord => r.state == .opened) ∘ fun r : PackageRecord =>
        if r.number = p.number ∧ r.state = .closed then { r with report := some .unsent } else r) =
        fun r => r.state == .opened := by
      funext r
      simp only [Function.comp]
      split <;> rfl
    rw [same]
    cases found : s.former.table.find? (fun r => r.state == .opened) with
    | none => rfl
    | some r =>
      have opened : r.state = .opened := by simpa using List.find?_some found
      simp [opened]
  | answer dest payload owned => cases owned <;> rfl
  | halt | resume | go | handoff => rfl

theorem enqueue_openPackage (b : TxBody) (s : State) : (enqueue b s).openPackage = s.openPackage := by
  unfold enqueue
  dsimp only
  (repeat' split)
  · rfl
  all_goals exact reportDrop_openPackage _ _

theorem announce_openPackage (c : LocalCause) (s : State) : (announce c s).openPackage = s.openPackage := by
  unfold announce
  split
  case h_4 => rfl
  all_goals exact enqueue_openPackage _ _

/-- The blocks of `t` are those of `u`. -/
structure SameBlocks (u t : State) : Prop where
  start : t.start = u.start
  length : t.length = u.length
  marks : t.marks = u.marks
  twist : t.twist = u.twist
  knot : t.knot = u.knot
  map : t.map = u.map
  banks : t.banks = u.banks
  listen : t.pace.listen = u.pace.listen
  arrivals : t.pace.arrivals = u.pace.arrivals
  package : t.openPackage = u.openPackage

theorem SameBlocks.trans {s u t : State} (first : SameBlocks s u) (second : SameBlocks u t) :
    SameBlocks s t where
  start := second.start.trans first.start
  length := second.length.trans first.length
  marks := second.marks.trans first.marks
  twist := second.twist.trans first.twist
  knot := second.knot.trans first.knot
  map := second.map.trans first.map
  banks := second.banks.trans first.banks
  listen := second.listen.trans first.listen
  arrivals := second.arrivals.trans first.arrivals
  package := second.package.trans first.package

theorem setStation_sameBlocks (s : State) (b : Station) : SameBlocks s (s.setStation b) := by
  constructor <;> rfl

theorem stop_sameBlocks (s : State) : SameBlocks s (s.setPace { s.pace with run := 0 }) := by
  constructor <;> rfl

theorem changeState_sameBlocks (state : StationState) (s : State) : SameBlocks s (changeState state s) := by
  constructor <;> simp [State.openPackage, calm_listen.changeState state s]

theorem announce_sameBlocks (c : LocalCause) (s : State) : SameBlocks s (announce c s) := by
  constructor <;> simp [announce_openPackage]

theorem actLevel_hard_of_ready {s : State} (ready : s.station.state = .ready) :
    actLevel .hard s = stopFromReady s := by
  simp [actLevel, ready]

/-- BREAK takes a READY station that holds nothing and does not dwell to STOPPED (R151, R153). -/
theorem raiseLocal_brk_of_ready {s : State} (ready : s.station.state = .ready) (still : s.length.dwelling = false)
    (clear : s.station.locals = []) :
    let u := announce .brk (s.setStation (s.station.takeLocal s.own .brk))
    raiseLocal .brk s = changeState .stopped (u.setPace { u.pace with run := 0 }) := by
  intro u
  have state : u.station.state = .ready := by
    obtain ⟨gone, station⟩ := announce_station .brk (s.setStation (s.station.takeLocal s.own .brk))
    rw [station]; exact ready
  have undwelt : clearDwell u = u := clearDwell_of_still (by simp [u, still])
  have run : s.inRun = true := by rw [State.inRun, ready]; rfl
  have taken : raiseLocal .brk s = actLevel .hard u := by simp [raiseLocal, run, clear, LocalCause.level, u]
  rw [taken, actLevel_hard_of_ready state, stopFromReady, undwelt]

/-! ## Run start from IDLE with nothing held -/

theorem startBlocks_station (k : Nat) (s : State) : (startBlocks k s).station = s.station := by
  obtain ⟨f, m, blocks, -⟩ := startBlocks_shape k s
  rw [blocks]; exact clearedBlocks_station k s

theorem startBlocks_length (k : Nat) (s : State) : (startBlocks k s).length = .reset := by
  obtain ⟨f, m, blocks, -⟩ := startBlocks_shape k s
  rw [blocks]; rfl

theorem startBlocks_run (k : Nat) (s : State) : (startBlocks k s).pace.run = 0 := by
  obtain ⟨f, m, blocks, -⟩ := startBlocks_shape k s
  rw [blocks]; rfl

theorem setEmpty_iff (st : Station) : st.setEmpty = true ↔ st.locals = [] ∧ st.peers = [] := by
  simp [Station.setEmpty]

/-- READY at run start. -/
def readied (k : Nat) (s : State) : State := changeState .ready (startBlocks k s)

theorem readied_station (k : Nat) (s : State) : (readied k s).station = s.station.enter .ready := by
  rw [readied, changeState_station, startBlocks_station]

theorem startRun_of_clear {k : Nat} {s : State} (off : s.station.brkActive = false) :
    startRun k s = readied k s := by
  have here : (readied k s).station.brkActive = false := by rw [readied_station]; exact off
  rw [startRun, ← readied, here, if_neg Bool.false_ne_true]

/-- BREAK is taken at once when BRK is active (R151). -/
theorem startRun_of_brk {k : Nat} {s : State} (empty : s.station.setEmpty = true)
    (on : s.station.brkActive = true) :
    let r := readied k s
    let u := announce .brk (r.setStation (r.station.takeLocal r.own .brk))
    startRun k s = changeState .stopped (u.setPace { u.pace with run := 0 }) := by
  obtain ⟨locals, -⟩ := (setEmpty_iff _).mp empty
  have station := readied_station k s
  have here : (readied k s).station.brkActive = true := by rw [station]; exact on
  have still : (readied k s).length.dwelling = false := by
    rw [readied, changeState_length, startBlocks_length]; rfl
  rw [startRun, ← readied, here, if_pos rfl]
  exact raiseLocal_brk_of_ready (by rw [station]; rfl) still (by rw [station]; exact locals)

theorem startRun_sameBlocks {s : State} (k : Nat) (empty : s.station.setEmpty = true) :
    SameBlocks (startBlocks k s) (startRun k s) := by
  have ready : SameBlocks (startBlocks k s) (readied k s) := changeState_sameBlocks _ _
  cases brk : s.station.brkActive with
  | false => rw [startRun_of_clear brk]; exact ready
  | true =>
    rw [startRun_of_brk empty brk]
    have told := (setStation_sameBlocks (readied k s) _).trans (announce_sameBlocks .brk ((readied k s).setStation
      ((readied k s).station.takeLocal (readied k s).own .brk)))
    exact ready.trans (told.trans ((stop_sameBlocks _).trans (changeState_sameBlocks _ _)))

theorem startRun_run {s : State} (k : Nat) (empty : s.station.setEmpty = true) :
    (startRun k s).pace.run = 0 := by
  cases brk : s.station.brkActive with
  | false => rw [startRun_of_clear brk, readied, changeState_run, startBlocks_run]
  | true => rw [startRun_of_brk empty brk, changeState_run]; rfl

/-- The station after run start (R151, R159, R160). -/
theorem startRun_station {s : State} (k : Nat) (empty : s.station.setEmpty = true) :
    let st := (startRun k s).station
    st.state = (if s.station.brkActive then .stopped else .ready) ∧
    st.locals = (if s.station.brkActive then [.brk] else []) ∧ st.peers = [] ∧ st.den = false ∧
    st.prevFirst = s.station.prevFirst := by
  intro st
  obtain ⟨locals, peers⟩ := (setEmpty_iff _).mp empty
  have ready := readied_station k s
  cases brk : s.station.brkActive with
  | false =>
    have station : st = s.station.enter .ready := by rw [← ready, ← startRun_of_clear brk]
    rw [station]
    exact ⟨rfl, locals, peers, rfl, rfl⟩
  | true =>
    obtain ⟨gone, told⟩ := announce_station .brk ((readied k s).setStation
      ((readied k s).station.takeLocal (readied k s).own .brk))
    have station : st = ({ (s.station.enter .ready).takeLocal (readied k s).own .brk with
        answerGone := gone } : Station).enter .stopped := by
      simp only [st]
      rw [startRun_of_brk empty brk, changeState_station, State.setPace_station, told, State.setStation_station,
        ready]
    rw [station]
    exact ⟨rfl, congrArg (fun l : List LocalCause => l ++ [.brk]) locals, peers, rfl, rfl⟩

/-! ## A run has begun -/

/-- The state after run start from `s` with bank `k`. -/
def Begun (k : Nat) (s t : State) : Prop :=
  t.station.state = (if s.station.brkActive then .stopped else .ready) ∧
  t.station.locals = (if s.station.brkActive then [.brk] else []) ∧ t.station.peers = [] ∧
  t.station.den = false ∧ t.station.prevFirst = s.station.prevFirst ∧ t.length = .reset ∧
  t.map = .reset ∧ t.knot = .reset ∧ t.twist.trim = 0 ∧ t.twist.windowOpen = false ∧
  t.twist.windowCount = 0 ∧ t.pace.run = 0 ∧ t.pace.arrivals = [] ∧
  t.pace.listen = s.pace.listen ∧ t.marks.skipped = 0 ∧
  t.bank k = { s.bank k with state := .active } ∧ (∀ j, j ≠ k → t.bank j = s.bank j) ∧
  t.start = s.start ∧
  (BankLawful s → t.marks = marksFrom (s.packagePage k).markInterval { s.marks with skipped := 0 }) ∧
  (BankLawful s → s.cfg.kind = .laying →
    let aim := aimOf ((s.bank k).twist.getD .absent).target10 s
    t.twist.eff10 = some aim ∧
    t.twist.ownOffer = min s.cfg.ownLimit (s.cfg.smax * 100000 / (aim * 1000))) ∧
  (s.cfg.kind ≠ .laying → t.twist.eff10 = s.twist.eff10 ∧ t.twist.ownOffer = s.twist.ownOffer) ∧
  (BankLawful s → PackageLawful s → s.cfg.forming = true → t.openPackage = some (firstRecord k s))

theorem startedTwist_of_other {s : State} (k : Nat) (kind : s.cfg.kind ≠ .laying) :
    startedTwist k s = s.twist.atRunStart := by
  simp [startedTwist, State.isLaying, kind]

/-- Trim, window and results are cleared on every kind (R45). -/
theorem startedTwist_cleared (k : Nat) (s : State) :
    (startedTwist k s).trim = 0 ∧ (startedTwist k s).windowOpen = false ∧
      (startedTwist k s).windowCount = 0 := by
  unfold startedTwist
  split
  · exact ⟨rfl, rfl, rfl⟩
  · exact ⟨rfl, rfl, rfl⟩

/-- On a LAYING station eff10 and own offer come from the bank's target10, the balance and trim 0 (R45). -/
theorem startedTwist_of_laying {s : State} {k : Nat} (hk : k < 4) (active : (banked k s).activeBank = some k)
    (kind : s.cfg.kind = .laying) :
    let aim := aimOf ((s.bank k).twist.getD .absent).target10 s
    (startedTwist k s).eff10 = some aim ∧
      (startedTwist k s).ownOffer = min s.cfg.ownLimit (s.cfg.smax * 100000 / (aim * 1000)) := by
  have start : (banked k s).start = s.start := by simp [banked]
  have pace : (banked k s).pace = s.pace := by simp [banked]
  have page : (banked k s).twistPage = (s.bank k).twist.getD .absent := by
    simp only [State.twistPage, active, banked_bank hk s]
  have aim (n : Nat) (x : Twist) : aimOf n ((banked k s).setTwist x) = aimOf n s := by
    simp only [aimOf, State.setTwist_pace, pace]
  have cfg : ((banked k s).setTwist s.twist.atRunStart).cfg = s.cfg := cfg_congr start
  have twistPage : ((banked k s).setTwist s.twist.atRunStart).twistPage = (s.bank k).twist.getD .absent := page
  have started : startedTwist k s = (retarget ((banked k s).setTwist s.twist.atRunStart)).twist := by
    simp [startedTwist, State.isLaying, kind]
  rw [started, retarget_of_laying (by rw [cfg, kind]), cfg, twistPage, aim]
  exact ⟨rfl, rfl⟩

theorem startRun_begun {k : Nat} {s : State} (hk : k < 4) (empty : s.station.setEmpty = true)
    (idle : s.station.state = .idle) : Begun k s (startRun k s) := by
  obtain ⟨f, m, blocks, skipped, first⟩ := startBlocks_shape k s
  obtain ⟨state, locals, peers, den, prevFirst⟩ := startRun_station k empty
  have same := startRun_sameBlocks k empty
  rw [blocks] at same
  have twist : (startRun k s).twist = startedTwist k s := same.twist
  have bank (j : Nat) : (startRun k s).bank j = (banked k s).bank j := by
    rw [State.bank, same.banks]; rfl
  have active (lawful : BankLawful s) : (banked k s).activeBank = some k :=
    banked_activeBank hk fun i hi => inactive_of_lawful lawful idle hi
  have former : (banked k s).former = s.former := by simp [banked]
  obtain ⟨trim, window, count⟩ := startedTwist_cleared k s
  refine ⟨state, locals, peers, den, prevFirst, same.length, same.map, same.knot, ?_, ?_, ?_,
    startRun_run k empty, same.arrivals, same.listen, ?_, ?_, ?_, ?_, ?marks, ?aim, ?other, ?package⟩
  · rw [twist, trim]
  · rw [twist, window]
  · rw [twist, count]
  · rw [same.marks]; exact skipped
  · rw [bank, banked_bank hk]
  · intro j other
    rw [bank, banked_bank_other other]
  · rw [same.start]; exact clearedBlocks_start k s
  case marks =>
    intro lawful
    obtain ⟨marks, -⟩ := first (active lawful)
    rw [same.marks, ← banked_packagePage hk s]
    exact marks
  case aim =>
    intro lawful kind
    rw [twist]
    exact startedTwist_of_laying hk (active lawful) kind
  case other =>
    intro kind
    rw [twist, startedTwist_of_other k kind]
    exact ⟨rfl, rfl⟩
  case package =>
    intro lawful packages forming
    obtain ⟨-, opened⟩ := first (active lawful)
    have record : firstRecord k (banked k s) = firstRecord k s := by
      rw [firstRecord, firstRecord, banked_packagePage hk, former]
    rw [same.package, ← record]
    exact opened forming (noneOpen_of_lawful packages idle)

end Sys2Proof.Machine
end

section
/-!
PROOF. A request addressed to this station, and the obligation about run start.
-/

namespace Sys2Proof.Machine

open Sys2Proof.Safety

/-! ## A request addressed to this station (R187, R188, R191) -/

theorem rxFate_of_asked {h : AskHead} {s : State} (ask : asked h s) (code : Byte) {args : List Byte}
    (short : args.length ≤ 22) : rxFate s.own 7 (askFrame h code args) = .received := by
  obtain ⟨⟨-, sender, other, dest⟩, notAll, -⟩ := ask
  obtain ⟨here, own⟩ := dest.resolve_left notAll
  have fits : ¬ 24 < (askFrame h code args).payload.length := by simp [askFrame]; omega
  have size : sizeFits (7 : BitVec 4).toNat (askFrame h code args).payload.length = true := by
    simp [askFrame, sizeFits]
  have kind : ¬ ((7 : BitVec 4) = 0 ∨ 8 < (7 : BitVec 4)) := by decide
  have bound : s.own ≤ 62 := by
    simp only [isStation, Bool.and_eq_true, decide_eq_true_eq] at own
    exact own.2
  simp only [rxFate, fits, kind, size, if_false, Bool.not_true, Bool.false_eq_true]
  simp [askFrame, sender, here, other, bound]

/-- The request is performed and answered at the same event (R191). -/
theorem receiveAsk_of_asked {h : AskHead} {s : State} (ask : asked h s) (code : Byte) {args : List Byte}
    (short : args.length ≤ 22) :
    receiveAsk code ⟨h, args⟩ s =
      let done := performAsk code.toNat args (holdPlace true (heard s))
      queueAnswer h.sender.toNat (done.2.payload h.tag code.toNat) done.2.restart done.1 := by
  have fate := rxFate_of_asked ask code short
  obtain ⟨⟨⟨isOn, seen⟩, -⟩, notAll, room⟩ := ask
  rw [receiveAsk, receive]
  simp only [isOn, seen, Bool.not_true, Bool.false_eq_true, if_false, fate]
  change (if h.dest = 0 then _ else askHere h.sender h.tag code.toNat args (heard s)) = _
  rw [if_neg notAll]
  exact if_pos room

theorem performAsk_of_serving {s : State} (service : serving s) (code : Nat) (args : List Byte) :
    performAsk code args s = perform code args s := by
  obtain ⟨free, reports⟩ := service
  have notHeld : (s.station.state == .held) = false := by
    cases state : s.station.state <;> simp_all [StationState.reports]
  simp [performAsk, barred, free, notHeld]

theorem byte_eq (n : Nat) : byte n = [BitVec.ofNat 8 n] := by
  simp [byte, be]

theorem payload_eq (tag : Byte) (code : Nat) (a : Answer) :
    a.payload tag code =
      tag :: BitVec.ofNat 8 code :: BitVec.ofNat 8 a.result :: BitVec.ofNat 8 a.detail :: a.data := by
  simp [Answer.payload, byte_eq]

/-! ## RUN(k) (R120) -/

theorem doRun_elsewhere {s : State} {k : Byte} (bank : k.toNat ≤ 3) (other : s.station.state ≠ .idle) :
    doRun [k] s = refuse .state s := by
  simp [doRun, not_lt.mpr bank, other]

theorem doRun_of_empty {s : State} {k : Byte} (bank : k.toNat ≤ 3) (idle : s.station.state = .idle)
    (empty : (s.bank k.toNat).state = .empty) : doRun [k] s = refuse .bankEmpty s := by
  simp [doRun, not_lt.mpr bank, idle, empty]

theorem doRun_of_loaded {s : State} {k : Byte} (bank : k.toNat ≤ 3) (idle : s.station.state = .idle)
    (loaded : (s.bank k.toNat).state = .loaded) : doRun [k] s = (startRun k.toNat s, .done 0 []) := by
  simp [doRun, not_lt.mpr bank, idle, loaded]

/-- RUN(k) as it arrives: performed with a place held for its ANSWER (R120, R191). -/
theorem exec_askRun_of_asked {h : AskHead} {s : State} (ask : asked h s) (service : serving s) (k : Byte) :
    exec (.askRun ⟨h, [k]⟩) s =
      .next (queueAnswer h.sender.toNat ((doRun [k] (holdPlace true (heard s))).2.payload h.tag 8)
        (doRun [k] (holdPlace true (heard s))).2.restart (doRun [k] (holdPlace true (heard s))).1) := by
  have short : [k].length ≤ 22 := by simp
  have received : exec (.askRun ⟨h, [k]⟩) s = .next (receiveAsk 8 ⟨h, [k]⟩ s) := rfl
  rw [received, receiveAsk_of_asked ask 8 short]
  dsimp only
  rw [performAsk_of_serving (s := holdPlace true (heard s)) service]
  rfl

/-! ## STA in IDLE (R151, R158) -/

theorem exec_staEdge_of_loaded {s : State} (idle : s.station.state = .idle)
    (loaded : (s.bank s.cfg.startBank).state = .loaded) (free : s.station.restartPending = false) :
    exec .staEdge s = .next (startRun s.cfg.startBank s) := by
  simp [exec, execStaEdge, idle, loaded, free]

theorem exec_staEdge_of_unready {s : State} (idle : s.station.state = .idle)
    (bars : (s.bank s.cfg.startBank).state ≠ .loaded ∨ s.station.restartPending = true) :
    exec .staEdge s = .next s := by
  have stays : (!s.station.restartPending && (s.bank s.cfg.startBank).state == .loaded) = false := by
    rcases bars with empty | pending
    · simp [empty]
    · simp [pending]
  simp [exec, execStaEdge, idle, stays]

/-- Settles O24: both beginnings are `startRun`, whose outcome is `startRun_begun`. -/
theorem runStartMakesTheBankActiveAndClearsTheBlocks :
    Obligations.RunStartMakesTheBankActiveAndClearsTheBlocks := by
  intro s empty begun
  refine ⟨fun idle hk => ⟨exec_staEdge_of_unready idle, fun loaded free => ?sta⟩,
    fun h k ask service bank => ⟨fun other => ?elsewhere, fun idle none => ?empty, fun idle loaded => ?run⟩⟩
  case sta => exact ⟨_, exec_staEdge_of_loaded idle loaded free, startRun_begun hk empty idle⟩
  case elsewhere =>
    rw [exec_askRun_of_asked ask service, doRun_elsewhere (s := holdPlace true (heard s)) bank other, payload_eq]
    rfl
  case empty =>
    rw [exec_askRun_of_asked ask service, doRun_of_empty (s := holdPlace true (heard s)) bank idle none, payload_eq]
    rfl
  case run =>
    refine ⟨_, exec_askRun_of_asked ask service k, ?_⟩
    rw [doRun_of_loaded (s := holdPlace true (heard s)) bank idle loaded, payload_eq]
    refine ⟨startRun_begun (s := holdPlace true (heard s)) (Nat.lt_succ_of_le bank) empty idle, ?_⟩
    exact List.getLast?_concat

end Sys2Proof.Machine
end

section
/-!
PROOF. The evaluation of a row: the missing counts of the enabled sections, the knot flag by the mode, and the
mesh check against its reference.
-/

namespace Sys2Proof.Machine

open Sys2Proof.Safety

/-! ## The missing counts of the enabled sections (R49, R51, R52) -/

/-- What a section misses of the expected count (R51). -/
def missingAt (page : KnotPage) (k : Knot) (i : Fin 8) : Nat := page.expected - k.counters[i.val]

/-- The enabled sections, in ascending order (R49). -/
def enabledSections (n : Nat) : List (Fin 8) := (List.finRange 8).filter (fun i => decide (i.val < n))

theorem mem_enabledSections {n : Nat} {i : Fin 8} : i ∈ enabledSections n ↔ i.val < n := by
  simp [enabledSections]

theorem take_finRange (n : Nat) : (List.finRange 8).take n = enabledSections n := by
  rcases Nat.lt_or_ge n 8 with few | all
  · interval_cases n <;> rfl
  · rw [List.take_of_length_le (by simpa using all), enabledSections, List.filter_eq_self.mpr]
    intro i _
    exact decide_eq_true (i.isLt.trans_le all)

/-- The row's missing counts are those of the enabled sections. -/
theorem missing_enabledCounters (page : KnotPage) (k : Knot) :
    (enabledCounters page.sections k.counters).map (missingOf page.expected) =
      (enabledSections page.sections).map (missingAt page k) := by
  have counters : k.counters.toList = (List.finRange 8).map (fun i => k.counters[i.val]) := by
    apply List.ext_getElem <;> simp
  rw [enabledCounters, counters, ← List.map_take, take_finRange, List.map_map]
  rfl

theorem rowResult_missing (page : KnotPage) (k : Knot) (pos : Nat) :
    (rowResult page k pos).missing =
      (Finset.univ.filter (fun i : Fin 8 => i.val < page.sections)).sum (missingAt page k) := by
  have sections : (enabledSections page.sections).toFinset =
      Finset.univ.filter (fun i : Fin 8 => i.val < page.sections) := by
    ext i; simp [mem_enabledSections]
  have nodup : (enabledSections page.sections).Nodup := (List.nodup_finRange 8).filter _
  rw [← sections, List.sum_toFinset _ nodup, ← missing_enabledCounters]
  rfl

/-- The total of eight sections that miss at most 250 each (R52). -/
theorem rowResult_missing_le {page : KnotPage} (bounded : page.expected ≤ 250) (k : Knot) (pos : Nat) :
    (rowResult page k pos).missing ≤ 2000 := by
  have each (i : Fin 8) : missingAt page k i ≤ 250 := (Nat.sub_le _ _).trans bounded
  calc (rowResult page k pos).missing
      = (Finset.univ.filter (fun i : Fin 8 => i.val < page.sections)).sum (missingAt page k) :=
        rowResult_missing page k pos
    _ ≤ Finset.univ.sum (missingAt page k) := Finset.sum_le_sum_of_subset (Finset.filter_subset _ _)
    _ ≤ Fintype.card (Fin 8) • 250 := Finset.sum_le_card_nsmul _ _ _ fun i _ => each i
    _ = 2000 := rfl

/-! ## The knot flag (R52) -/

theorem rowResult_knotFlag (page : KnotPage) (k : Knot) (pos : Nat) :
    (rowResult page k pos).knotFlag =
      knotFlagged page.mode page.threshold ((enabledSections page.sections).map (missingAt page k)) := by
  rw [← missing_enabledCounters]; rfl

theorem knotFlag_of_any {page : KnotPage} (any : page.mode = .any) (k : Knot) (pos : Nat) :
    (rowResult page k pos).knotFlag = true ↔
      ∃ i : Fin 8, i.val < page.sections ∧ page.threshold ≤ missingAt page k i := by
  simp [rowResult_knotFlag, knotFlagged, any, mem_enabledSections]

theorem knotFlag_of_all {page : KnotPage} (all : page.mode = .all) (k : Knot) (pos : Nat) :
    (rowResult page k pos).knotFlag = true ↔
      ∀ i : Fin 8, i.val < page.sections → page.threshold ≤ missingAt page k i := by
  simp [rowResult_knotFlag, knotFlagged, all, mem_enabledSections]

/-- With one section the modes agree. -/
theorem knotFlag_of_one_section {page : KnotPage} (one : page.sections = 1) (k : Knot) (pos : Nat) :
    (rowResult { page with mode := .any } k pos).knotFlag =
      (rowResult { page with mode := .all } k pos).knotFlag := by
  have sections : enabledSections page.sections = [0] := by rw [one]; rfl
  simp [rowResult_knotFlag, knotFlagged, sections, missingAt]

/-- Settles O17: total, flag and major row from the missing counts of the enabled sections. -/
theorem rowFlagFollowsTheModeAndTheMissingCounts : Obligations.RowFlagFollowsTheModeAndTheMissingCounts := by
  intro page k pos short r
  have major : r.major = (r.knotFlag && decide (page.majorRow ≤ r.missing)) := rfl
  refine ⟨rowResult_missing page k pos, fun any => knotFlag_of_any any k pos,
    fun all => knotFlag_of_all all k pos, by simp [major],
    fun bounded => rowResult_missing_le bounded k pos, fun one => knotFlag_of_one_section one k pos⟩

/-! ## The mesh check (R53 to R56) -/

/-- What the advance of a row is checked against: the first reference or the previous advance (R54, R55). -/
def meshReference (page : KnotPage) (k : Knot) : Option Nat :=
  match page.meshRef with
  | .first => k.firstRef
  | .prev => k.prevAdvance

theorem rowResult_mesh (page : KnotPage) (k : Knot) (pos : Nat) :
    ((rowResult page k pos).deviation, (rowResult page k pos).meshFlag) =
      meshCheck page k (rowResult page k pos).advance := rfl

theorem meshCheck_of_reference {page : KnotPage} {k : Knot} {f : Nat} (against : meshReference page k = some f)
    (a : Nat) :
    meshCheck page k (some a) =
      (some (keptDeviation a f), decide (f = 0) || decide (page.meshTol < meshDeviation a f)) := by
  unfold meshReference at against
  cases ref : page.meshRef <;> rw [ref] at against <;> simp_all [meshCheck]

theorem meshCheck_of_zero {page : KnotPage} {k : Knot} (against : meshReference page k = some 0) (a : Nat) :
    meshCheck page k (some a) = (some 65535, true) := by
  simp [meshCheck_of_reference against, keptDeviation]

theorem meshCheck_of_pos {page : KnotPage} {k : Knot} {f : Nat} (against : meshReference page k = some f)
    (positive : 0 < f) (a : Nat) :
    meshCheck page k (some a) =
      (some (min 65535 (meshDeviation a f)), decide (page.meshTol < meshDeviation a f)) := by
  simp [meshCheck_of_reference against, keptDeviation, positive.ne']

/-- The row that gives the first reference (R54). -/
theorem meshCheck_of_no_first {page : KnotPage} {k : Knot} (ref : page.meshRef = .first)
    (none : k.firstRef = none) (a : Nat) : meshCheck page k (some a) = (some 0, false) := by
  simp [meshCheck, ref, none]

theorem meshCheck_of_no_previous {page : KnotPage} {k : Knot} (ref : page.meshRef = .prev)
    (none : k.prevAdvance = none) (a : Nat) : meshCheck page k (some a) = (.none, false) := by
  simp [meshCheck, ref, none]

end Sys2Proof.Machine
end

section
/-!
PROOF. Properties of a state that the run map and the package former keep: a property that the former's own
blocks, the map, the transmit queue, a SOFT cause and a bank switch keep outlasts every event told to the former.
-/

namespace Sys2Proof.Machine

open Sys2Proof.Safety

/-- The map's operations keep `P`: its entries, the hand-offs it queues and the SOFT causes it raises. -/
structure MapKeeps (P : State → Prop) : Prop where
  map : ∀ s b, P s → P (s.setMap b)
  queue : ∀ s b, P s → P (enqueue b s)
  raise : ∀ s c, P s → P (raiseSoft c s)

/-- The former's own updates, and the bank switch of a fire, keep `P` too. -/
structure FormerKeeps (P : State → Prop) : Prop extends MapKeeps P where
  former : ∀ s b, P s → P (s.setFormer b)
  marks : ∀ s b, P s → P (s.setMarks b)
  switch : ∀ s p, P s → P (switchStaged p s).1

/-- What each step of a fold keeps, the fold keeps. -/
theorem foldl_keeps_of {α : Type} {P : State → Prop} {f : State → α → State} (keeps : ∀ s a, P s → P (f s a))
    (l : List α) {s : State} (holds : P s) : P (l.foldl f s) := by
  induction l generalizing s with
  | nil => exact holds
  | cons a l ih => exact ih (keeps s a holds)

namespace MapKeeps

variable {P : State → Prop} (h : MapKeeps P) {s : State} (holds : P s)
include h holds

theorem handOff (e : MapEntry) : P (Machine.handOff e s) :=
  foldl_keeps_of (fun s _ => h.queue s _) _ holds

theorem offerRaw (e : MapEntry) : P (Machine.offerRaw e s).1 := by
  have placed (e : MapEntry) (l : List MapEntry) (b : Bool) : P (placeEntry e l b s) := by
    unfold placeEntry
    dsimp only
    split
    · exact h.map _ _ holds
    · exact h.handOff (h.map _ _ holds) _
  have dropped : P (countDropped s) := h.map _ _ holds
  unfold Machine.offerRaw
  dsimp only
  split
  · exact placed _ _ _
  · exact placed _ _ _
  · exact dropped
  · exact h.raise _ _ dropped

theorem runAtMap (kind : EntryKind) (start count threshold length : Nat) (now run : Bool) :
    P (Machine.runAtMap kind start count threshold length now run s).1 := by
  have extended : P (extendEntry kind s.pos count now s).1 := by
    unfold extendEntry
    split
    · exact holds
    · exact h.map _ _ holds
  unfold Machine.runAtMap
  split
  · exact extended
  · split
    · exact h.offerRaw holds _
    · exact holds

theorem closeAsHandover (kind : EntryKind) : P (Machine.closeAsHandover kind s).1 := by
  unfold Machine.closeAsHandover closeEntry
  dsimp only
  split
  · exact holds
  · exact h.handOff (h.map _ _ holds) _

end MapKeeps

namespace FormerKeeps

variable {P : State → Prop} (h : FormerKeeps P)
include h

/-! ## The cut list and the package table -/

theorem closeRecord {s : State} (holds : P s) (k : Nat) (r : CloseReason) (p : PackageRecord) :
    P (Machine.closeRecord k r p s) := by
  have report (s : State) (r : PackageRecord) (holds : P s) : P (queueReport s r) :=
    h.queue _ _ (h.former _ _ holds)
  have requeued : P (requeueUnsent (setCuts (s.former.cuts.filter (fun c => !c.isPackageEnd))
      (s.setMap { s.map with entries := entriesAfter k s.map.entries }))) :=
    foldl_keeps_of report _ (h.former _ _ (h.map _ _ holds))
  exact report _ _ (h.former _ _ requeued)

theorem openRecord {s : State} (holds : P s) (k extra : Nat) : P (Machine.openRecord k extra s) :=
  h.marks _ _ (h.former _ _ holds)

theorem testMarkAt {s : State} (holds : P s) (len : Nat) : P (Machine.testMarkAt len s) := by
  rw [testMarkAt_eq]
  exact h.marks _ _ holds

/-! ## Placing, moving and planning, for what fires a cut -/

section Fires

variable {f : Fire} (fires : ∀ c k x s, P s → P (f c k x s)) {s : State} (holds : P s)
include fires holds

theorem placeCut (c : Cut) (extra : Nat) : P (Machine.placeCut f c extra s) := by
  unfold Machine.placeCut
  split_ifs
  · exact fires _ _ _ _ holds
  · exact h.former _ _ holds
  · exact h.former _ _ holds

theorem moveCut (c : Cut) (rest : List Cut) : P (Machine.moveCut f c rest s) := by
  unfold Machine.moveCut
  split_ifs
  · exact fires _ _ _ _ (h.former _ _ holds)
  · exact h.former _ _ holds

theorem cutOut (e : MapEntry) (dropPlan : Bool) : P (Machine.cutOut f e dropPlan s).1 := by
  unfold Machine.cutOut
  split
  · exact holds
  · dsimp only
    split
    · exact h.former _ _ holds
    · exact h.former _ _ holds
    · exact h.former _ _ holds
    · split
      · exact h.placeCut fires (h.placeCut fires (h.former _ _ holds) _ _) _ _
      · exact h.placeCut fires (h.former _ _ (h.former _ _ holds)) _ _

theorem planIfDue : P (Machine.planIfDue f s) := by
  unfold Machine.planIfDue
  split
  · exact holds
  · dsimp only
    split
    · split
      · exact h.placeCut fires holds _ _
      · split
        · exact h.cutOut fires holds _ _
        · exact h.placeCut fires (h.cutOut fires holds _ _) _ _
    · exact holds

theorem checkPlan : P (Machine.checkPlan f s) := by
  unfold Machine.checkPlan
  split
  · dsimp only
    split
    · exact holds
    · split
      · exact h.moveCut fires holds _ _
      · exact h.cutOut fires holds _ _
  · exact holds

theorem retype : P (Machine.retype f s) := by
  unfold Machine.retype
  split
  · exact holds
  · dsimp only
    split
    · exact holds
    · split
      · exact h.former _ _ (h.former _ _ holds)
      · exact h.planIfDue fires (h.former _ _ holds)

theorem joinLimit (e : MapEntry) : P (Machine.joinLimit f e s).1 := by
  unfold Machine.joinLimit
  split
  · exact holds
  · dsimp only
    split_ifs
    · exact h.placeCut fires (h.former _ _ holds) _ _
    · exact h.cutOut fires holds _ _
    · exact holds

theorem changeCut (e : MapEntry) : P (Machine.changeCut f e s) := by
  unfold Machine.changeCut
  dsimp only
  split
  · exact h.placeCut fires holds _ _
  · split
    · exact h.placeCut fires (h.former _ _ holds) _ _
    · exact h.former _ _ holds

/-! ## The events of the run map (R84) -/

theorem entryInserted (e : MapEntry) : P (Machine.entryInserted f e s) := by
  have cut : P (if e.severity == .major && cutsOutMajor s then (Machine.cutOut f e false s).1 else s) := by
    split
    · exact h.cutOut fires holds _ _
    · exact holds
  have limited {u : State} (cut : P u) :
      P (if e.kind == .join then Machine.joinLimit f e u else (u, false)).1 := by
    split
    · exact h.joinLimit fires cut _
    · exact cut
  have checked {r : State × Bool} (limited : P r.1) :
      P (if e.blocker && !r.2 then Machine.checkPlan f r.1 else r.1) := by
    split
    · exact h.checkPlan fires limited
    · exact limited
  unfold Machine.entryInserted
  split
  · dsimp only
    split
    · exact h.changeCut fires (checked (limited cut)) _
    · exact checked (limited cut)
  · exact holds

theorem entryUpgraded (e : MapEntry) : P (Machine.entryUpgraded f e s) := by
  unfold Machine.entryUpgraded
  split_ifs
  · exact h.checkPlan fires (h.cutOut fires holds _ _)
  · exact h.checkPlan fires holds
  · exact holds

theorem entryClosed (e : MapEntry) : P (Machine.entryClosed f s e) := by
  have released (final : Nat) : P (releaseCut f final s) := by
    unfold releaseCut
    split
    · exact holds
    · split
      · exact holds
      · exact h.moveCut fires holds _ _
  unfold Machine.entryClosed
  split
  · exact h.checkPlan fires (released _)
  · exact holds

end Fires

/-! ## Fires (R96) and the hand-overs -/

theorem fireCut (n : Nat) (c : Cut) (k extra : Nat) (s : State) (holds : P s) :
    P (Machine.fireCut n c k extra s) := by
  induction n generalizing c k extra s with
  | zero => exact holds
  | succ n ih =>
    unfold Machine.fireCut
    split
    · exact holds
    · split
      · exact h.retype ih holds
      · have pulsed := h.former s { s.former with cutHigh := true } holds
        have switched (len : Nat) (r : CloseReason) (p : PackageRecord) :=
          h.switch _ k (h.closeRecord (h.testMarkAt pulsed len) k r p)
        have opened (len : Nat) (r : CloseReason) (p : PackageRecord) :=
          h.planIfDue ih (h.openRecord (switched len r p) k extra)
        have told (s : State) (e : MapEntry) (holds : P s) : P (Machine.entryClosed (Machine.fireCut n) s e) :=
          h.entryClosed ih holds e
        dsimp only
        refine foldl_keeps_of told _ ?_
        split
        · exact h.raise _ _ (opened _ _ _)
        · exact opened _ _ _

theorem tellAll (hs : List Handover) {s : State} (holds : P s) : P (Machine.tellAll hs s) := by
  refine foldl_keeps_of (fun s event holds => ?_) hs holds
  cases event with
  | inserted e => exact h.entryInserted (h.fireCut fireDepth) holds e
  | upgraded e => exact h.entryUpgraded (h.fireCut fireDepth) holds e
  | closed e => exact h.entryClosed (h.fireCut fireDepth) holds e

end FormerKeeps

end Sys2Proof.Machine
end

section
/-!
PROOF. The close of a row up to the switch: what it makes of inspection's own block, what it leaves of the other
meters, and that it does not see whether a bank is STAGED or LOADED.
-/

namespace Sys2Proof.Machine

open Sys2Proof.Safety

/-! ## The meters beside the map, the station and the former -/

/-- START's block, length metering, twist regulation, inspection and the banks of `t` are those of `u`. -/
structure SameMeters (u t : State) : Prop where
  start : t.start = u.start
  length : t.length = u.length
  twist : t.twist = u.twist
  knot : t.knot = u.knot
  banks : t.banks = u.banks

theorem SameMeters.refl (s : State) : SameMeters s s := ⟨rfl, rfl, rfl, rfl, rfl⟩

theorem SameMeters.setKnot {u t : State} (same : SameMeters u t) (k : Knot) :
    SameMeters (u.setKnot k) (t.setKnot k) :=
  ⟨same.start, same.length, same.twist, rfl, same.banks⟩

/-- A SOFT cause on a station that does not dwell leaves length metering and inspection alone. -/
theorem raiseSoft_of_still {s : State} (still : s.length.dwelling = false) (c : LocalCause) :
    (raiseSoft c s).length = s.length ∧ (raiseSoft c s).knot = s.knot := by
  have acts {t : State} (still : t.length.dwelling = false) :
      (actSoft t).length = t.length ∧ (actSoft t).knot = t.knot := by
    unfold actSoft
    (repeat' split) <;> simp [stopFromReady, ease, clearDwell_of_still still]
  unfold raiseSoft
  split
  · obtain ⟨length, knot⟩ := acts (t := announce c (s.setStation (s.station.takeLocal s.own c))) (by simpa)
    exact ⟨by simpa using length, by simpa using knot⟩
  · exact ⟨rfl, rfl⟩

theorem sameMeters_mapKeeps {u : State} (still : u.length.dwelling = false) : MapKeeps (SameMeters u) where
  map _ _ same := ⟨same.start, same.length, same.twist, same.knot, same.banks⟩
  queue s b same := ⟨by simp [same.start], by simp [same.length], by simp [same.twist], by simp [same.knot],
    by simp [same.banks]⟩
  raise s c same := by
    obtain ⟨length, knot⟩ := raiseSoft_of_still (s := s) (by rw [same.length, still]) c
    exact ⟨by simp [same.start], length.trans same.length, by simp [same.twist], knot.trans same.knot,
      by simp [same.banks]⟩

theorem switchStaged_of_none {s : State} (none : s.stagedBank = none) (position : Nat) :
    switchStaged position s = (s, []) := by
  rw [switchStaged, none]

/-- While no bank is STAGED and the station does not dwell, the former leaves the meters alone. -/
theorem sameMeters_formerKeeps {u : State} (still : u.length.dwelling = false) (none : u.stagedBank = none) :
    FormerKeeps (SameMeters u) where
  toMapKeeps := sameMeters_mapKeeps still
  former _ _ same := ⟨same.start, same.length, same.twist, same.knot, same.banks⟩
  marks _ _ same := ⟨same.start, same.length, same.twist, same.knot, same.banks⟩
  switch s p same := by
    rw [switchStaged_of_none (by rw [stagedBank_congr same.banks, none])]
    exact same

/-! ## The close of a row step by step (R50) -/

/-- The results of the open row, as they stand at its close (R51 to R56). -/
def rowNow (s : State) : RowResult := rowResult s.knotPage s.knot s.pos

/-- Steps 1 to 5 of R50. -/
def knottedRow (s : State) : State × List Handover :=
  knotRunStep s.knotPage (rowNow s) (s.setKnot (s.knot.record s.knotPage s.pos))

/-- Steps 1 to 6 of R50. -/
def meshedRow (s : State) : State × List Handover := meshRunStep s.knotPage (rowNow s) (knottedRow s).1

/-- The row evaluated and the next one open, before the former and the switch. -/
def openedRow (s : State) : State :=
  (meshedRow s).1.setKnot ((meshedRow s).1.knot.nextRow (meshedRow s).1.pos)

/-- The former told of what the row did to the map. -/
def toldRow (s : State) : State := tellAll ((knottedRow s).2 ++ (meshedRow s).2) (openedRow s)

theorem closeRow_eq (s : State) :
    closeRow s = if (toldRow s).forming then toldRow s else (switchStaged (toldRow s).pos (toldRow s)).1 := rfl

/-- Inspection once the row has closed and the next one has opened. -/
def closedKnot (s : State) : Knot :=
  (((s.knot.record s.knotPage s.pos).knotRow (rowNow s)).meshRow (rowNow s)).nextRow s.pos

/-- The two steps at the map, in the block of inspection and beside it. -/
theorem knotRunStep_sameMeters {u s : State} (same : SameMeters u s) (still : u.length.dwelling = false)
    (page : KnotPage) (r : RowResult) :
    SameMeters (u.setKnot (u.knot.knotRow r)) (knotRunStep page r s).1 := by
  have keeps : MapKeeps (SameMeters (u.setKnot (u.knot.knotRow r))) := sameMeters_mapKeeps still
  have run : SameMeters (u.setKnot (u.knot.knotRow r)) (s.setKnot (s.knot.knotRow r)) := by
    rw [same.knot]; exact same.setKnot _
  unfold knotRunStep
  dsimp only
  split
  · split
    · exact keeps.raise _ _ (keeps.runAtMap run _ _ _ _ _ _ _)
    · exact keeps.runAtMap run _ _ _ _ _ _ _
  · exact keeps.closeAsHandover run _

theorem meshRunStep_sameMeters {u s : State} (same : SameMeters u s) (still : u.length.dwelling = false)
    (page : KnotPage) (r : RowResult) :
    SameMeters (u.setKnot (u.knot.meshRow r)) (meshRunStep page r s).1 := by
  have keeps : MapKeeps (SameMeters (u.setKnot (u.knot.meshRow r))) := sameMeters_mapKeeps still
  have run : SameMeters (u.setKnot (u.knot.meshRow r)) (s.setKnot (s.knot.meshRow r)) := by
    rw [same.knot]; exact same.setKnot _
  unfold meshRunStep
  dsimp only
  split
  · exact keeps.runAtMap run _ _ _ _ _ _ _
  · exact keeps.closeAsHandover run _

theorem knottedRow_sameMeters {s : State} (still : s.length.dwelling = false) :
    SameMeters (s.setKnot ((s.knot.record s.knotPage s.pos).knotRow (rowNow s))) (knottedRow s).1 :=
  knotRunStep_sameMeters ((SameMeters.refl s).setKnot (s.knot.record s.knotPage s.pos)) still s.knotPage (rowNow s)

theorem openedRow_sameMeters {s : State} (still : s.length.dwelling = false) :
    SameMeters (s.setKnot (closedKnot s)) (openedRow s) := by
  have meshed : SameMeters _ (meshedRow s).1 :=
    meshRunStep_sameMeters (knottedRow_sameMeters still) still s.knotPage (rowNow s)
  have pos : (meshedRow s).1.pos = s.pos := pos_congr (congrArg Length.acc meshed.length)
  have next : (meshedRow s).1.knot.nextRow (meshedRow s).1.pos = closedKnot s := by
    rw [meshed.knot, pos]; rfl
  rw [openedRow, next]
  exact meshed.setKnot (closedKnot s)

/-! ## The close with no bank STAGED -/

theorem closeRow_of_none_staged {s : State} (still : s.length.dwelling = false) (none : s.stagedBank = none) :
    closeRow s = toldRow s ∧ SameMeters (s.setKnot (closedKnot s)) (toldRow s) := by
  have keeps : FormerKeeps (SameMeters (s.setKnot (closedKnot s))) := sameMeters_formerKeeps still none
  have told : SameMeters (s.setKnot (closedKnot s)) (toldRow s) :=
    keeps.tellAll _ (openedRow_sameMeters still)
  have unstaged : (toldRow s).stagedBank = .none := (stagedBank_congr told.banks).trans none
  exact ⟨by rw [closeRow_eq, switchStaged_of_none unstaged, ite_self], told⟩

/-- A station that forms no packages has nothing to tell the former. -/
theorem toldRow_of_not_forming {s : State} (still : s.length.dwelling = false) (plain : s.cfg.forming = false) :
    toldRow s = openedRow s :=
  tellAll_of_not_forming (by rw [cfg_congr (openedRow_sameMeters still).start]; exact plain) _

/-! ## The switch to the one STAGED bank (R123, R124) -/

@[simp] theorem Bank.unstage_knot (b : Bank) : b.unstage.knot = b.knot := by
  unfold Bank.unstage; split <;> rfl
@[simp] theorem unstaged_knotPage (s : State) : (unstaged s).knotPage = s.knotPage := by
  simp [State.knotPage, unstaged_bank]
@[simp] theorem closeAsHandover_unstaged (kind : EntryKind) (s : State) :
    closeAsHandover kind (unstaged s) = (unstaged (closeAsHandover kind s).1, (closeAsHandover kind s).2) := by
  simp [closeAsHandover]
@[simp] theorem knotRunStep_unstaged (page : KnotPage) (r : RowResult) (s : State) :
    knotRunStep page r (unstaged s) = (unstaged (knotRunStep page r s).1, (knotRunStep page r s).2) := by
  cases flag : r.knotFlag <;> simp [knotRunStep, flag, apply_ite unstaged]
@[simp] theorem meshRunStep_unstaged (page : KnotPage) (r : RowResult) (s : State) :
    meshRunStep page r (unstaged s) = (unstaged (meshRunStep page r s).1, (meshRunStep page r s).2) := by
  cases flag : r.meshFlag <;> simp [meshRunStep, flag]

/-- The row is evaluated in full, and the next one opened, under the bank that was ACTIVE (R123). -/
theorem openedRow_unstaged (s : State) : openedRow (unstaged s) = unstaged (openedRow s) := by
  simp [openedRow, meshedRow, knottedRow, rowNow]

theorem closeRow_of_staged {s : State} {k : Nat} (still : s.length.dwelling = false)
    (plain : s.cfg.forming = false) (staged : s.stagedBank = some k)
    (one : s.banks.toList.countP (fun b => b.state == .staged) ≤ 1) :
    closeRow s = (switchBank k s.pos (closeRow (unstaged s))).1 := by
  have same := openedRow_sameMeters still
  have told := toldRow_of_not_forming still plain
  have forms : (openedRow s).forming = false := by rw [State.forming, cfg_congr same.start]; exact plain
  have pos : (openedRow s).pos = s.pos := pos_congr (congrArg Length.acc same.length)
  have stands : (openedRow s).stagedBank = some k := (stagedBank_congr same.banks).trans staged
  have alike : switchStates k (unstaged (openedRow s)) = switchStates k (openedRow s) :=
    switchStates_unstaged stands (by rw [same.banks]; exact one)
  have under : closeRow (unstaged s) = unstaged (openedRow s) := by
    rw [(closeRow_of_none_staged (s := unstaged s) still (unstaged_stagedBank s)).1,
      toldRow_of_not_forming (s := unstaged s) still plain, openedRow_unstaged]
  rw [under, closeRow_eq, told, forms, if_neg Bool.false_ne_true, pos, switchStaged, stands]
  simp only [switchBank, alike, unstaged_twistPage]

end Sys2Proof.Machine
end

section
/-!
PROOF. The obligation about the row stroke: inspection's block after a close, and on a station that forms no
packages the KNOT and MESH entries and KNOT_RUN.
-/

namespace Sys2Proof.Machine

open Sys2Proof.Safety

/-! ## The row stroke (R48, R50) -/

@[simp] theorem exec_rowStroke (s : State) : exec .rowStroke s = .next (rowStroke s) := rfl

/-- A row stroke closes a row: the station drives a NETTING machine, a row is open, and it does not dwell. -/
def RowCloses (s : State) : Prop :=
  s.cfg.kind = .netting ∧ s.station.state.driven = true ∧ s.knot.rowOpen = true ∧ s.length.dwelling = false

theorem rowCloses_iff (s : State) :
    (s.isNetting && s.station.state.driven && s.knot.rowOpen && !s.length.dwelling) = true ↔ RowCloses s := by
  simp [RowCloses, and_assoc]

theorem rowStroke_of_closing {s : State} (closing : RowCloses s) : rowStroke s = closeRow s := by
  rw [rowStroke, if_pos ((rowCloses_iff s).mpr closing)]

theorem rowStroke_ignored {s : State} (elsewhere : ¬ RowCloses s) : rowStroke s = s := by
  rw [rowStroke, if_neg fun closing => elsewhere ((rowCloses_iff s).mp closing)]

theorem inRun_of_driven {s : State} (driven : s.station.state.driven = true) : s.inRun = true := by
  cases state : s.station.state <;> simp_all [State.inRun, StationState.driven, StationState.inRun]

/-! ## Inspection after the close (R51, R53, R57 to R59, R63) -/

/-- The start of the knot run that this row belongs to, if it is flagged (R57). -/
def knotStartNow (s : State) : Nat := if s.knot.knotRun = 0 then s.knot.rowStart else s.knot.knotStart

/-- The length of that run with this row, saturating (R57). -/
def knotRunNow (s : State) : Nat := min 65535 (s.knot.knotRun + 1)

/-- Whether that run holds a major row (R57). -/
def knotMajorNow (s : State) : Bool :=
  (rowNow s).major || (decide (s.knot.knotRun ≠ 0) && s.knot.knotMajor)

/-- The start of the mesh run that this row belongs to, if it is flagged (R59). -/
def meshStartNow (s : State) : Nat := if s.knot.meshRun = 0 then s.knot.rowStart else s.knot.meshStart

/-- The length of that run with this row, saturating (R59). -/
def meshRunNow (s : State) : Nat := min 255 (s.knot.meshRun + 1)

theorem addOvercounts_getElem (n expected : Nat) (counters overcount : Vector Nat 8) (i : Fin 8) :
    (addOvercounts n expected counters overcount)[i.val] =
      if i.val < n then min 65535 (overcount[i.val] + (counters[i.val] - expected)) else overcount[i.val] := by
  simp [addOvercounts, satAdd, Vector.get, Config.count16]

/-- The advance of a row is the first reference unless there is one (R54). -/
theorem Knot.record_firstRef_of_some {k : Knot} {f : Nat} (first : k.firstRef = some f) (page : KnotPage)
    (pos : Nat) : (k.record page pos).firstRef = some f := by
  simp [Knot.record, first]

theorem Knot.record_firstRef_of_none {k : Knot} (none : k.firstRef = none) (page : KnotPage) (pos : Nat) :
    (k.record page pos).firstRef = (rowResult page k pos).advance := by
  simp [Knot.record, none]

theorem Knot.knotRow_eq (r : RowResult) (k : Knot) :
    k.knotRow r = { k with
      knotStart := if r.knotFlag then (if k.knotRun = 0 then k.rowStart else k.knotStart) else k.knotStart
      knotMajor := r.knotFlag && (r.major || (decide (k.knotRun ≠ 0) && k.knotMajor))
      knotRun := if r.knotFlag then min 65535 (k.knotRun + 1) else 0 } := by
  have started : (k.knotRun != 0) = decide (k.knotRun ≠ 0) := by simp [bne, beq_eq_decide]
  cases flag : r.knotFlag <;> simp [Knot.knotRow, flag, sat, Config.count16, started]

theorem Knot.meshRow_eq (r : RowResult) (k : Knot) :
    k.meshRow r = { k with
      meshStart := if r.meshFlag then (if k.meshRun = 0 then k.rowStart else k.meshStart) else k.meshStart
      meshRun := if r.meshFlag then min 255 (k.meshRun + 1) else 0 } := by
  cases flag : r.meshFlag <;> simp [Knot.meshRow, flag, sat, Config.count8]

/-- Inspection after the close, field by field. -/
theorem closedKnot_eq (s : State) :
    closedKnot s = { s.knot.record s.knotPage s.pos with
      knotStart := if (rowNow s).knotFlag then knotStartNow s else s.knot.knotStart
      knotMajor := (rowNow s).knotFlag && knotMajorNow s
      knotRun := if (rowNow s).knotFlag then knotRunNow s else 0
      meshStart := if (rowNow s).meshFlag then meshStartNow s else s.knot.meshStart
      meshRun := if (rowNow s).meshFlag then meshRunNow s else 0
      rowOpen := true, counters := Vector.replicate 8 0, rowStart := s.pos, prevClose := some s.pos } := by
  rw [closedKnot, Knot.knotRow_eq, Knot.meshRow_eq]
  rfl

/-! ## A row at the map (R57 to R59) -/

/-- What a row does to the entry of its run: flagged, it extends or opens it, and else it closes it. -/
def rowAtMap (kind : EntryKind) (flagged now run : Bool) (start count length threshold : Nat) (s : State) :
    State :=
  if flagged then (runAtMap kind start count threshold length now run s).1 else (closeEntry kind s).1

theorem closeEntry_entries (kind : EntryKind) (s : State) :
    (closeEntry kind s).1.map = { s.map with
      entries := runLogged kind false false false 0 0 0 0 s.pos s.map.entries } := by
  cases found : s.openEntry kind with
  | some x => rw [closeEntry_of_open found, handOff_map]; rfl
  | none =>
    have closed (e : MapEntry) (mem : e ∈ s.map.entries) :
        (if e.isOpen && e.kind == kind then { e with isOpen := false, forwarded := true } else e) = e :=
      if_neg (List.find?_eq_none.mp found e mem)
    have same : runLogged kind false false false 0 0 0 0 s.pos s.map.entries = s.map.entries := by
      rw [runLogged, if_pos rfl]
      exact (List.map_congr_left closed).trans (List.map_id _)
    rw [closeEntry_of_none found, same]

theorem rowAtMap_map {s : State} (room : s.map.entries.length < Config.mapCapacity) (kind : EntryKind)
    (flagged now run : Bool) (start count length threshold : Nat) :
    (rowAtMap kind flagged now run start count length threshold s).map = { s.map with
      entries := runLogged kind flagged now run start count length threshold s.pos s.map.entries } := by
  cases flagged with
  | true => rw [rowAtMap, if_pos rfl, runAtMap_of_room room]; rfl
  | false => exact closeEntry_entries kind s

theorem runLogged_length_le (kind : EntryKind) (flagged now run : Bool) (start count length threshold pos : Nat)
    (entries : List MapEntry) :
    (runLogged kind flagged now run start count length threshold pos entries).length ≤ entries.length + 1 := by
  unfold runLogged
  split_ifs <;> simp

/-- The station stands as `st`, but that the ANSWER to a RESTART may have gone. -/
def StationStands (st : Station) (s : State) : Prop := ∃ gone, s.station = { st with answerGone := gone }

theorem StationStands.refl (s : State) : StationStands s.station s := ⟨s.station.answerGone, rfl⟩

theorem enqueue_stands {st : Station} (s : State) (b : TxBody) (stands : StationStands st s) :
    StationStands st (enqueue b s) := by
  obtain ⟨gone, station⟩ := stands
  obtain ⟨left, queued⟩ := enqueue_station b s
  exact ⟨left, by rw [queued, station]⟩

theorem closeEntry_stands (kind : EntryKind) (s : State) : StationStands s.station (closeEntry kind s).1 := by
  unfold closeEntry
  split
  · exact .refl s
  · exact foldl_keeps_of (fun s _ => enqueue_stands s _) _ ⟨s.station.answerGone, rfl⟩

theorem rowAtMap_stands {s : State} (room : s.map.entries.length < Config.mapCapacity) (kind : EntryKind)
    (flagged now run : Bool) (start count length threshold : Nat) :
    StationStands s.station (rowAtMap kind flagged now run start count length threshold s) := by
  cases flagged with
  | true => rw [rowAtMap, if_pos rfl, runAtMap_of_room room]; exact .refl s
  | false => exact closeEntry_stands kind s

/-! ## The knot run and the mesh run (R57 to R60) -/

/-- The row raises KNOT_RUN: it is flagged, and its run has reached D and the run limit (R60). -/
def KnotLimited (s : State) : Prop :=
  (rowNow s).knotFlag = true ∧ s.knotPage.duration ≤ knotRunNow s ∧ s.knotPage.runLimit ≤ knotRunNow s

/-- The map's entries once the KNOT entry has followed the knot run. -/
def knotLogged (s : State) : List MapEntry :=
  runLogged .knot (rowNow s).knotFlag (rowNow s).major (knotMajorNow s) (knotStartNow s)
    (min 255 (knotRunNow s)) (knotRunNow s) s.knotPage.duration s.pos s.map.entries

/-- The map's entries once the MESH entry has followed the mesh run as well. -/
def meshLogged (s : State) : List MapEntry :=
  runLogged .mesh (rowNow s).meshFlag false false (meshStartNow s) (meshRunNow s) (meshRunNow s)
    s.knotPage.duration s.pos (knotLogged s)

theorem knotLogged_length_le (s : State) : (knotLogged s).length ≤ s.map.entries.length + 1 :=
  runLogged_length_le ..

/-- The knot run at the map, before KNOT_RUN. -/
def knotAtMap (s : State) : State :=
  rowAtMap .knot (rowNow s).knotFlag (rowNow s).major (knotMajorNow s) (knotStartNow s)
    (min 255 (knotRunNow s)) (knotRunNow s) s.knotPage.duration
    (s.setKnot ((s.knot.record s.knotPage s.pos).knotRow (rowNow s)))

theorem knottedRow_of_flagged {s : State} (flag : (rowNow s).knotFlag = true) :
    (knottedRow s).1 = if s.knotPage.duration ≤ knotRunNow s ∧ s.knotPage.runLimit ≤ knotRunNow s
      then raiseSoft .knotRun (knotAtMap s) else knotAtMap s := by
  simp only [knottedRow, knotRunStep, flag, if_true, Knot.knotRow_eq, knotAtMap, rowAtMap]
  rfl

theorem knottedRow_of_limited {s : State} (limited : KnotLimited s) :
    (knottedRow s).1 = raiseSoft .knotRun (knotAtMap s) := by
  obtain ⟨flag, long, limit⟩ := limited
  rw [knottedRow_of_flagged flag, if_pos ⟨long, limit⟩]

theorem knottedRow_of_unlimited {s : State} (unlimited : ¬ KnotLimited s) :
    (knottedRow s).1 = knotAtMap s := by
  cases flag : (rowNow s).knotFlag with
  | true => rw [knottedRow_of_flagged flag, if_neg fun reached => unlimited ⟨flag, reached⟩]
  | false => simp [knottedRow, knotRunStep, flag, knotAtMap, rowAtMap, closeAsHandover, State.setKnot]

theorem knottedRow_map (s : State) : (knottedRow s).1.map = (knotAtMap s).map := by
  by_cases limited : KnotLimited s
  · rw [knottedRow_of_limited limited, raiseSoft_map]
  · rw [knottedRow_of_unlimited limited]

/-- The mesh run at the map, once the knot run has been there. -/
theorem meshedRow_eq {s : State} (still : s.length.dwelling = false) :
    (meshedRow s).1 = rowAtMap .mesh (rowNow s).meshFlag false false (meshStartNow s) (meshRunNow s)
      (meshRunNow s) s.knotPage.duration
      ((knottedRow s).1.setKnot ((knottedRow s).1.knot.meshRow (rowNow s))) := by
  cases flag : (rowNow s).meshFlag with
  | true =>
    obtain ⟨starts, runs⟩ : ((knottedRow s).1.knot.meshRow (rowNow s)).meshStart = meshStartNow s ∧
        ((knottedRow s).1.knot.meshRow (rowNow s)).meshRun = meshRunNow s := by
      rw [(knottedRow_sameMeters still).knot, State.setKnot_knot, Knot.meshRow_eq, Knot.knotRow_eq, flag]
      exact ⟨rfl, rfl⟩
    simp only [meshedRow, meshRunStep, flag, if_true, starts, runs, rowAtMap]
  | false => simp [meshedRow, meshRunStep, flag, rowAtMap, closeAsHandover]

/-! ## Map and station after the close, with two places free in the map -/

section TwoPlaces

variable {s : State} (room : s.map.entries.length + 2 ≤ 64)
include room

theorem knotAtMap_map : (knotAtMap s).map = { s.map with entries := knotLogged s } :=
  rowAtMap_map (s := s.setKnot _) (by simp only [State.setKnot_map, Config.mapCapacity]; omega) ..

theorem knotAtMap_stands : StationStands s.station (knotAtMap s) :=
  rowAtMap_stands (s := s.setKnot _) (by simp only [State.setKnot_map, Config.mapCapacity]; omega) ..

theorem knottedRow_room (k : Knot) : ((knottedRow s).1.setKnot k).map.entries.length < Config.mapCapacity := by
  have longer := knotLogged_length_le s
  rw [State.setKnot_map, knottedRow_map, knotAtMap_map room]
  simp only [Config.mapCapacity]
  omega

/-- The KNOT entry follows the knot run and the MESH entry the mesh run (R57 to R59). -/
theorem openedRow_map (still : s.length.dwelling = false) :
    (openedRow s).map = { s.map with entries := meshLogged s } := by
  have pos (k : Knot) : ((knottedRow s).1.setKnot k).pos = s.pos :=
    pos_congr (congrArg Length.acc (knottedRow_sameMeters still).length)
  rw [openedRow, State.setKnot_map, meshedRow_eq still, rowAtMap_map (knottedRow_room room _), pos,
    State.setKnot_map, knottedRow_map, knotAtMap_map room]
  rfl

theorem openedRow_stands (still : s.length.dwelling = false) :
    StationStands (knottedRow s).1.station (openedRow s) := by
  have meshed : StationStands (knottedRow s).1.station (meshedRow s).1 := by
    rw [meshedRow_eq still]
    exact rowAtMap_stands (knottedRow_room room _) ..
  exact meshed

theorem openedRow_station_of_unlimited (still : s.length.dwelling = false) (unlimited : ¬ KnotLimited s) :
    StationStands s.station (openedRow s) := by
  obtain ⟨_, knotted⟩ := knotAtMap_stands room
  obtain ⟨gone, opened⟩ := openedRow_stands room still
  exact ⟨gone, by rw [opened, knottedRow_of_unlimited unlimited, knotted]⟩

/-- KNOT_RUN is taken if it is not held, and eases a station that runs unheld (R60, R153, R160, R161). -/
theorem openedRow_station_of_limited (still : s.length.dwelling = false) (run : s.inRun = true)
    (limited : KnotLimited s) :
    (openedRow s).station.locals = (if .knotRun ∈ s.station.locals then s.station.locals
      else s.station.locals ++ [.knotRun]) ∧
    (.knotRun ∉ s.station.locals → s.station.state = .run → s.station.hardHeld = false →
      (openedRow s).station.state = .easing ∧ (openedRow s).station.alm = true) := by
  obtain ⟨_, knotted⟩ := knotAtMap_stands room
  obtain ⟨_, opened⟩ := openedRow_stands room still
  have locals : (knotAtMap s).station.locals = s.station.locals := by rw [knotted]
  have running : (knotAtMap s).inRun = true := by rw [State.inRun, knotted]; exact run
  rw [opened, knottedRow_of_limited limited]
  refine ⟨?_, fun new state free => ?_⟩
  · split <;> rename_i held
    · rw [raiseSoft_ignored (.inr (by rwa [locals]))]; exact locals
    · simp [raiseSoft_of_new running (by rwa [locals]), Station.takeLocal, locals]
  · exact raiseSoft_of_running (s := knotAtMap s) rfl (by rw [knotted]; exact state)
      (by rw [knotted]; exact free) (by rwa [locals])

end TwoPlaces

/-- Settles O18: the stroke is `closeRow`, whose meters are those of `closedKnot`, and whose map and station, where
no packages are formed, are those of `openedRow`. -/
theorem rowStrokeClosesTheOpenRow : Obligations.RowStrokeClosesTheOpenRow := by
  intro s closing r off d knotRun meshRun knotStart meshStart runMajor knotted meshed limited
  refine ⟨fun elsewhere => ?ignored, fun k closes plain lawful staged => ?switch, fun unchecked => ?unchecked,
    fun a checked => ?checked, fun closes none => ?closes⟩
  case ignored => rw [exec_rowStroke, rowStroke_ignored elsewhere]
  case switch =>
    obtain ⟨-, -, one⟩ := lawful
    have ⟨_, _, _, still⟩ := closes
    refine ⟨_, exec_rowStroke (unstaged s), ?_⟩
    rw [exec_rowStroke, rowStroke_of_closing closes, rowStroke_of_closing (s := unstaged s) closes,
      closeRow_of_staged still plain staged (one.trans (by cases s.inRun <;> decide))]
  case unchecked =>
    have mesh := rowResult_mesh s.knotPage s.knot s.pos
    rw [unchecked] at mesh
    exact Prod.mk.inj mesh
  case checked =>
    have mesh := rowResult_mesh s.knotPage s.knot s.pos
    rw [checked] at mesh
    refine ⟨fun first none => ?_, fun prev none => ?_, fun f against => ⟨fun zero => ?_, fun positive => ?_⟩⟩
    · exact Prod.mk.inj (mesh.trans (meshCheck_of_no_first first none a))
    · exact Prod.mk.inj (mesh.trans (meshCheck_of_no_previous prev none a))
    · subst zero
      exact Prod.mk.inj (mesh.trans (meshCheck_of_zero against a))
    · obtain ⟨deviation, flag⟩ := Prod.mk.inj (mesh.trans (meshCheck_of_pos against positive a))
      exact ⟨deviation, by rw [flag, decide_eq_true_eq]; rfl⟩
  case closes =>
    have ⟨_, driven, _, still⟩ := closes
    obtain ⟨told, same⟩ := closeRow_of_none_staged still none
    refine ⟨toldRow s, by rw [exec_rowStroke, rowStroke_of_closing closes, told], ?_⟩
    rw [same.knot, State.setKnot_knot, closedKnot_eq]
    refine ⟨rfl, rfl, rfl, fun f first => Knot.record_firstRef_of_some first _ _,
      fun none => Knot.record_firstRef_of_none none _ _, addOvercounts_getElem _ _ _ _, rfl, rfl, rfl, rfl, rfl,
      fun flag => ⟨if_pos flag, ?major⟩, fun flag => if_pos flag, rfl, rfl, rfl, rfl,
      same.length, same.start, same.twist, fun plain room => ?atMap⟩
    case major =>
      have flag : (rowNow s).knotFlag = true := flag
      rw [flag]; rfl
    case atMap =>
      rw [toldRow_of_not_forming still plain]
      refine ⟨openedRow_map room still, fun unlimited => ?_,
        openedRow_station_of_limited room still (inRun_of_driven driven)⟩
      obtain ⟨gone, station⟩ := openedRow_station_of_unlimited room still unlimited
      rw [station]
      exact ⟨rfl, rfl⟩

end Sys2Proof.Machine
end

section
/-!
PROOF. What the law of the package table reads of a state, and the operations that leave it as it stands: every one
but those that open or close a package, begin or end a run, or belong to reset and START.
-/

namespace Sys2Proof.Machine

open Sys2Proof.Safety

/-! ## What the law reads (R91, R92, R111) -/

/-- What bounds a run: START's block, whether a restart pends, whether a run exists and whether the station is in
START. -/
structure RunView where
  start : StartBlock
  pending : Bool
  run : Bool
  starting : Bool

def runView (s : State) : RunView :=
  { start := s.start, pending := s.station.restartPending, run := s.inRun
    starting := s.station.state == .start }

/-- The states of the package records, in table order. -/
def recordStates (f : Former) : List PackageState := f.table.map (fun r => r.state)

/-- All that PackageLawful reads of a state. -/
def packageView (s : State) : RunView × List PackageState := (runView s, recordStates s.former)

theorem packageView_congr {s t : State}
    (same : t.start = s.start ∧ t.station = s.station ∧ t.former = s.former) :
    packageView t = packageView s := by
  obtain ⟨start, station, former⟩ := same
  simp only [packageView, runView, State.inRun, start, station, former]

/-- The records keep their states under a change of other fields. -/
theorem recordStates_map {g : PackageRecord → PackageRecord} (keeps : ∀ r, (g r).state = r.state) (f : Former)
    (f' : Former) (table : f'.table = f.table.map g) : recordStates f' = recordStates f := by
  simp [recordStates, table, Function.comp_def, keeps]

theorem packageView_setFormer {s : State} {f : Former} (same : recordStates f = recordStates s.former) :
    packageView (s.setFormer f) = packageView s := congrArg (Prod.mk (runView s)) same

/-- The station may change but for its state and the pending restart. -/
theorem packageView_setStation {s : State} {x : Station} (state : x.state = s.station.state)
    (pending : x.restartPending = s.station.restartPending) :
    packageView (s.setStation x) = packageView s := by
  simp [packageView, runView, State.inRun, state, pending]

/-- So may its state, within a run. -/
theorem packageView_enter {s : State} {x : Station} (run : s.inRun = true) (goesOn : x.state.inRun = true)
    (pending : x.restartPending = s.station.restartPending) :
    packageView (s.setStation x) = packageView s := by
  have running {state : StationState} (run : state.inRun = true) : (state == .start) = false := by
    cases state <;> simp_all [StationState.inRun]
  have here : (s.station.state == .start) = false := running run
  rw [State.inRun] at run
  simp only [packageView, runView, State.inRun, State.setStation_station, State.setStation_start,
    State.setStation_former, goesOn, run, pending, here, running goesOn]

/-! ## Blocks that the law does not read -/

@[simp] theorem packageView_setLength (s : State) (b : Length) :
    packageView (s.setLength b) = packageView s := rfl
@[simp] theorem packageView_setMarks (s : State) (b : Marks) :
    packageView (s.setMarks b) = packageView s := rfl
@[simp] theorem packageView_setTwist (s : State) (b : Twist) :
    packageView (s.setTwist b) = packageView s := rfl
@[simp] theorem packageView_setKnot (s : State) (b : Knot) :
    packageView (s.setKnot b) = packageView s := rfl
@[simp] theorem packageView_setMap (s : State) (b : RunMap) :
    packageView (s.setMap b) = packageView s := rfl
@[simp] theorem packageView_setBanks (s : State) (b : Vector Bank 4) :
    packageView (s.setBanks b) = packageView s := rfl
@[simp] theorem packageView_setPace (s : State) (b : Pace) :
    packageView (s.setPace b) = packageView s := rfl
@[simp] theorem packageView_setPly (s : State) (b : Ply) :
    packageView (s.setPly b) = packageView s := rfl
@[simp] theorem packageView_setPending (s : State) (b : List Instr) :
    packageView (s.setPending b) = packageView s := rfl
@[simp] theorem packageView_setBank (s : State) (k : Nat) (b : Bank) :
    packageView (s.setBank k b) = packageView s := packageView_congr (by simp)

/-! ## Queuing, station state and SOFT causes -/

theorem recordStates_markReport (n : Nat) (r : ReportState) (f : Former) :
    recordStates (f.markReport n r) = recordStates f :=
  recordStates_map (fun _ => by split <;> rfl) f _ rfl

@[simp] theorem packageView_reportDrop (b : TxBody) (s : State) :
    packageView (reportDrop b s) = packageView s := by
  unfold reportDrop
  split
  · exact packageView_setFormer (recordStates_markReport _ _ _)
  · exact packageView_setStation rfl rfl
  · rfl

@[simp] theorem packageView_enqueue (b : TxBody) (s : State) :
    packageView (enqueue b s) = packageView s := by
  unfold enqueue; dsimp only; (repeat' split) <;> simp

@[simp] theorem packageView_refreshPace (s : State) : packageView (refreshPace s) = packageView s :=
  packageView_congr (by simp)

theorem packageView_changeState {s : State} {target : StationState} (run : s.inRun = true)
    (goesOn : target.inRun = true) : packageView (changeState target s) = packageView s := by
  rw [changeState, packageView_refreshPace]
  exact packageView_enter run goesOn rfl

@[simp] theorem packageView_clearDwell (s : State) : packageView (clearDwell s) = packageView s :=
  packageView_congr (by simp)
@[simp] theorem packageView_loadDwell (s : State) : packageView (loadDwell s) = packageView s :=
  packageView_congr (by simp)

theorem inRun_of_state {s : State} {state : StationState} (here : s.station.state = state)
    (run : state.inRun = true) : s.inRun = true := by rwa [State.inRun, here]

@[simp] theorem clearDwell_inRun (s : State) : (clearDwell s).inRun = s.inRun := by
  rw [State.inRun, clearDwell_station, State.inRun]

theorem packageView_stopFromReady {s : State} (run : s.inRun = true) :
    packageView (stopFromReady s) = packageView s := by
  have still : ((clearDwell s).setPace { (clearDwell s).pace with run := 0 }).inRun = true := by
    rw [← run, ← clearDwell_inRun s]; rfl
  rw [stopFromReady, packageView_changeState still rfl]
  simp

@[simp] theorem packageView_actSoft (s : State) : packageView (actSoft s) = packageView s := by
  unfold actSoft
  split
  · rename_i ready
    exact packageView_stopFromReady (inRun_of_state ready rfl)
  · rename_i running
    have run : (clearDwell s).inRun = true := by rw [clearDwell_inRun]; exact inRun_of_state running rfl
    split
    · rfl
    · rw [ease, packageView_changeState run rfl, packageView_clearDwell]
  · rfl

@[simp] theorem packageView_announce (c : LocalCause) (s : State) :
    packageView (announce c s) = packageView s := by
  unfold announce; split <;> simp

@[simp] theorem packageView_takeLocal (c : LocalCause) (own : Nat) (s : State) :
    packageView (s.setStation (s.station.takeLocal own c)) = packageView s := packageView_setStation rfl rfl

@[simp] theorem packageView_raiseSoft (c : LocalCause) (s : State) :
    packageView (raiseSoft c s) = packageView s := by
  unfold raiseSoft; split <;> simp

/-- An EASING station that runs again and a STOPPED one that is READY again stay in the run (R154, R156). -/
@[simp] theorem packageView_settleRemoval (s : State) : packageView (settleRemoval s) = packageView s := by
  unfold settleRemoval
  split
  · have noted : packageView (s.setStation s.station.noteEmptied) = packageView s :=
      packageView_setStation rfl rfl
    dsimp only
    split
    · rename_i easing
      have run : (loadDwell (s.setStation s.station.noteEmptied)).inRun = true :=
        inRun_of_state (state := .easing) (by rw [loadDwell_station]; exact easing) rfl
      rw [resumeRun, packageView_changeState run rfl, packageView_loadDwell, noted]
    · rename_i stopped
      rw [packageView_changeState (inRun_of_state stopped rfl) rfl, noted]
    · exact noted
  · rfl

/-! ## The map -/

@[simp] theorem packageView_handOff (e : MapEntry) (s : State) :
    packageView (handOff e s) = packageView s :=
  foldl_keeps packageView _ (fun _ _ => packageView_enqueue _ _) _ s

@[simp] theorem packageView_offerRaw (e : MapEntry) (s : State) :
    packageView (offerRaw e s).1 = packageView s := by
  have placed (e : MapEntry) (l : List MapEntry) (b : Bool) :
      packageView (placeEntry e l b s) = packageView s := by
    unfold placeEntry; dsimp only; split <;> simp
  have dropped : packageView (countDropped s) = packageView s := packageView_congr (by simp)
  unfold offerRaw; dsimp only; split <;> simp [placed, dropped]

@[simp] theorem packageView_mergeLocal (k : EntryKind) (s : State) :
    packageView (mergeLocal k s) = packageView s := packageView_congr (by simp)

@[simp] theorem packageView_offerLocal (k : EntryKind) (s : State) :
    packageView (offerLocal k s).1 = packageView s := by
  have forgotten : packageView (forgetLocal k s) = packageView s := packageView_congr (by simp)
  unfold offerLocal; dsimp only; split <;> simp [forgotten]

@[simp] theorem packageView_extendEntry (k : EntryKind) (p c : Nat) (m : Bool) (s : State) :
    packageView (extendEntry k p c m s).1 = packageView s := packageView_congr (by simp)

@[simp] theorem packageView_closeEntry (k : EntryKind) (s : State) :
    packageView (closeEntry k s).1 = packageView s := by
  unfold closeEntry; split <;> simp

@[simp] theorem packageView_retain (before : Nat) (s : State) :
    packageView (retain before s) = packageView s := packageView_congr (by simp)

@[simp] theorem packageView_runAtMap (kind : EntryKind) (start count threshold length : Nat) (now run : Bool)
    (s : State) : packageView (runAtMap kind start count threshold length now run s).1 = packageView s := by
  unfold runAtMap; dsimp only; (repeat' split) <;> simp

/-! ## Twist regulation, inspection, marks and the bank switch -/

@[simp] theorem packageView_testMarkAt (len : Nat) (s : State) :
    packageView (testMarkAt len s) = packageView s := packageView_congr (by simp)
@[simp] theorem packageView_testMark (s : State) :
    packageView (testMark s) = packageView s := packageView_congr (by simp)
@[simp] theorem packageView_retarget (s : State) :
    packageView (retarget s) = packageView s := packageView_congr (by simp)
@[simp] theorem packageView_openWindow (s : State) :
    packageView (openWindow s) = packageView s := packageView_congr (by simp)
@[simp] theorem packageView_openRow (s : State) :
    packageView (openRow s) = packageView s := packageView_congr (by simp)

@[simp] theorem packageView_endTwistRun (s : State) :
    packageView (endTwistRun s).1 = packageView s := by
  simp [endTwistRun]
@[simp] theorem packageView_switchTwist (old : Nat) (s : State) :
    packageView (switchTwist old s).1 = packageView s := by
  unfold switchTwist; dsimp only; (repeat' split) <;> simp
@[simp] theorem packageView_closeKnotEntries (s : State) :
    packageView (closeKnotEntries s).1 = packageView s := by
  simp [closeKnotEntries]
@[simp] theorem packageView_switchKnot (s : State) : packageView (switchKnot s).1 = packageView s := by
  unfold switchKnot; split <;> simp
@[simp] theorem packageView_switchStates (k : Nat) (s : State) :
    packageView (switchStates k s) = packageView s := packageView_congr (by simp)
@[simp] theorem packageView_switchBank (k p : Nat) (s : State) :
    packageView (switchBank k p s).1 = packageView s := by
  unfold switchBank; dsimp only; split <;> simp
@[simp] theorem packageView_switchStaged (p : Nat) (s : State) :
    packageView (switchStaged p s).1 = packageView s := by
  unfold switchStaged; split <;> simp

@[simp] theorem packageView_twistRunStep (c : WindowClass) (s : State) :
    packageView (twistRunStep c s).1 = packageView s := by
  unfold twistRunStep; dsimp only; (repeat' split) <;> simp
@[simp] theorem packageView_closeAsHandover (k : EntryKind) (s : State) :
    packageView (closeAsHandover k s).1 = packageView s := by
  simp [closeAsHandover]
@[simp] theorem packageView_knotRunStep (p : KnotPage) (r : RowResult) (s : State) :
    packageView (knotRunStep p r s).1 = packageView s := by
  unfold knotRunStep; dsimp only; (repeat' split) <;> simp
@[simp] theorem packageView_meshRunStep (p : KnotPage) (r : RowResult) (s : State) :
    packageView (meshRunStep p r s).1 = packageView s := by
  unfold meshRunStep; dsimp only; split <;> simp

/-! ## The cut list and the records at a report -/

@[simp] theorem packageView_setCuts (l : List Cut) (s : State) :
    packageView (setCuts l s) = packageView s := packageView_setFormer rfl
@[simp] theorem packageView_refuseCut (s : State) :
    packageView (refuseCut s) = packageView s := packageView_setFormer rfl
@[simp] theorem packageView_extendCut (i c : Nat) (w : Bool) (s : State) :
    packageView (extendCut i c w s) = packageView s := packageView_setCuts _ _
@[simp] theorem packageView_firmCuts (s : State) :
    packageView (firmCuts s) = packageView s := packageView_setCuts _ _

/-- A new type leaves the OPEN record open (R91). -/
@[simp] theorem packageView_mapOpen_type (type : PackageType) (s : State) :
    packageView (mapOpen (fun r => { r with type }) s) = packageView s :=
  packageView_setFormer (recordStates_map (fun _ => by dsimp only; split <;> rfl) _ _ rfl)

@[simp] theorem packageView_queueReport (s : State) (r : PackageRecord) :
    packageView (queueReport s r) = packageView s := by
  rw [queueReport, packageView_enqueue]
  exact packageView_setFormer (recordStates_markReport _ _ _)

@[simp] theorem packageView_requeueUnsent (s : State) :
    packageView (requeueUnsent s) = packageView s :=
  foldl_keeps packageView _ packageView_queueReport _ s

end Sys2Proof.Machine
end

section
/-!
PROOF. The package table at the former: a close leaves no record OPEN, an opening adds one, and so every fire of a
cut, and everything that may fire one, keeps the number of OPEN records.
-/

namespace Sys2Proof.Machine

open Sys2Proof.Safety

/-- A run is bounded as in `v`, the table is within its capacity, and one record is OPEN or none is, by `o`
(R91, R92). -/
structure Packed (v : RunView) (o : Bool) (s : State) : Prop where
  view : runView s = v
  fits : (recordStates s.former).length ≤ Config.tableCapacity
  opened : (recordStates s.former).count .opened = flag o

theorem count_opened_recordStates (f : Former) :
    (recordStates f).count .opened = f.table.countP (fun r => r.state == .opened) := by
  rw [recordStates, List.count_eq_countP, List.countP_map]; rfl

/-! ## The close and the opening of a package (R91, R92, R111) -/

/-- A close turns every OPEN record into a CLOSED one. -/
theorem packageView_closeRecord (k : Nat) (reason : CloseReason) (p : PackageRecord) (s : State) :
    packageView (closeRecord k reason p s) =
      (runView s, (recordStates s.former).map (fun x => if x = .opened then .closed else x)) := by
  have settled : packageView (requeueUnsent (setCuts (s.former.cuts.filter (fun c => !c.isPackageEnd))
      (s.setMap { s.map with entries := entriesAfter k s.map.entries }))) = packageView s := by simp
  obtain ⟨bounds, states⟩ := Prod.mk.inj settled
  rw [closeRecord, packageView_queueReport]
  refine Prod.ext bounds ?_
  rw [← states]
  simp only [packageView, mapOpen, State.setFormer_former, recordStates, List.map_map]
  refine List.map_congr_left fun r _ => ?_
  simp only [Function.comp]
  split <;> rfl

/-- The record of the package that opens at `k`, `extra` SCRAP_ENDs counted beside the pending cuts (R91). -/
def nextRecord (k extra : Nat) (s : State) : PackageRecord :=
  { number := s.former.makeRoom.nextNumber, type := typeOf extra s.former.makeRoom.cuts
    bank := s.activeBank.getD 0, productCode := (s.packagePage (s.activeBank.getD 0)).productCode
    startPos := k, endPos := none, joinCount := 0, joins := [], defects := [], defectsDropped := 0
    grade := none, reason := none, state := .opened, report := none }

theorem openRecord_table (k extra : Nat) (s : State) :
    (openRecord k extra s).former.table = s.former.makeRoom.table ++ [nextRecord k extra s] := rfl

/-- A table without an OPEN record gives one up when it is full (R92). -/
theorem makeRoom_length_lt {f : Former} (none : NoneOpen f) (fits : f.table.length ≤ Config.tableCapacity) :
    f.makeRoom.table.length < Config.tableCapacity := by
  have taken {p : PackageRecord → Bool} {r : PackageRecord} {rest : List PackageRecord}
      (found : takeFirst p f.table = some (r, rest)) : rest.length < Config.tableCapacity := by
    obtain ⟨pre, post, table, rfl, -, -⟩ := takeFirst_some found
    rw [table] at fits
    simp only [List.length_append, List.length_cons] at fits ⊢
    omega
  unfold Former.makeRoom
  split
  · assumption
  · split
    · exact taken ‹_›
    · rename_i full unreported
      split
      · exact taken ‹_›
      · rename_i unclosed
        have empty : f.table = [] := List.eq_nil_iff_forall_not_mem.mpr fun r mem => by
          have reported := takeFirst_none.mp unreported r mem
          have closed := takeFirst_none.mp unclosed r mem
          have opened := none r mem
          cases state : r.state <;> simp_all
        simp [empty, Config.tableCapacity]

/-! ## What keeps the number of OPEN records -/

namespace Packed

variable {v : RunView} {o : Bool} {s : State}

theorem frame {t : State} (h : Packed v o s) (same : packageView t = packageView s) : Packed v o t := by
  obtain ⟨view, states⟩ := Prod.mk.inj same
  exact ⟨view.trans h.view, states ▸ h.fits, states ▸ h.opened⟩

theorem closeRecord (h : Packed v o s) (k : Nat) (reason : CloseReason) (p : PackageRecord) :
    Packed v false (Machine.closeRecord k reason p s) := by
  obtain ⟨view, states⟩ := Prod.mk.inj (packageView_closeRecord k reason p s)
  refine ⟨view.trans h.view, ?_, ?_⟩
  · rw [states, List.length_map]; exact h.fits
  · rw [states]
    refine List.count_eq_zero.mpr fun mem => ?_
    obtain ⟨x, -, closed⟩ := List.mem_map.mp mem
    split at closed
    · cases closed
    · contradiction

theorem noneOpen (h : Packed v false s) : NoneOpen s.former := by
  have none := h.opened
  rw [count_opened_recordStates] at none
  intro r mem
  simpa using List.countP_eq_zero.mp none r mem

theorem openRecord (h : Packed v false s) (k extra : Nat) : Packed v true (Machine.openRecord k extra s) := by
  have none := h.noneOpen
  have room := makeRoom_length_lt none (by simpa [recordStates] using h.fits)
  obtain ⟨sub, -, -⟩ := makeRoom_spec s.former
  have left : s.former.makeRoom.table.countP (fun r => r.state == .opened) = 0 :=
    List.countP_eq_zero.mpr fun r mem => by simpa using none r (sub.subset mem)
  refine ⟨h.view, ?_, ?_⟩
  · rw [recordStates, openRecord_table]
    simpa using room
  · rw [count_opened_recordStates, openRecord_table, List.countP_append, left]
    rfl

theorem of_openPackage {p : PackageRecord} (h : Packed v o s) (opened : s.openPackage = some p) : o = true := by
  by_contra closed
  rw [Bool.eq_false_of_not_eq_true closed] at h
  exact absurd (by simpa using List.find?_some opened) (h.noneOpen p (List.mem_of_find?_eq_some opened))

/-- What each step of a fold keeps, the fold keeps. -/
theorem foldl {α : Type} {g : State → α → State} (keeps : ∀ t a, Packed v o t → Packed v o (g t a))
    (l : List α) (h : Packed v o s) : Packed v o (l.foldl g s) :=
  foldl_keeps_of (P := Packed v o) keeps l h

/-! ## Placing, moving and planning, for what fires a cut -/

section Fires

variable {f : Fire} (fires : ∀ c k x t, Packed v o t → Packed v o (f c k x t)) (h : Packed v o s)
include fires h

theorem placeCut (c : Cut) (extra : Nat) : Packed v o (Machine.placeCut f c extra s) := by
  unfold Machine.placeCut
  split_ifs
  · exact fires _ _ _ _ h
  · exact h.frame (by simp)
  · exact h.frame (by simp)

theorem moveCut (c : Cut) (rest : List Cut) : Packed v o (Machine.moveCut f c rest s) := by
  unfold Machine.moveCut
  split_ifs
  · exact fires _ _ _ _ (h.frame (by simp))
  · exact h.frame (by simp)

theorem cutOut (e : MapEntry) (dropPlan : Bool) : Packed v o (Machine.cutOut f e dropPlan s).1 := by
  unfold Machine.cutOut
  split
  · exact h
  · dsimp only
    split
    · exact h.frame (by simp)
    · exact h.frame (by simp)
    · exact h.frame (by simp)
    · split
      · exact placeCut fires (placeCut fires (h.frame (by simp)) _ _) _ _
      · exact placeCut fires (h.frame (by simp)) _ _

theorem planIfDue : Packed v o (Machine.planIfDue f s) := by
  unfold Machine.planIfDue
  split
  · exact h
  · dsimp only
    split
    · split
      · exact placeCut fires h _ _
      · split
        · exact cutOut fires h _ _
        · exact placeCut fires (cutOut fires h _ _) _ _
    · exact h

theorem checkPlan : Packed v o (Machine.checkPlan f s) := by
  unfold Machine.checkPlan
  split
  · dsimp only
    split
    · exact h
    · split
      · exact moveCut fires h _ _
      · exact cutOut fires h _ _
  · exact h

theorem retype : Packed v o (Machine.retype f s) := by
  unfold Machine.retype
  split
  · exact h
  · dsimp only
    split
    · exact h
    · split
      · exact h.frame (by simp)
      · exact planIfDue fires (h.frame (by simp))

theorem joinLimit (e : MapEntry) : Packed v o (Machine.joinLimit f e s).1 := by
  unfold Machine.joinLimit
  split
  · exact h
  · dsimp only
    split_ifs
    · exact placeCut fires (h.frame (by simp)) _ _
    · exact cutOut fires h _ _
    · exact h

theorem changeCut (e : MapEntry) : Packed v o (Machine.changeCut f e s) := by
  unfold Machine.changeCut
  dsimp only
  split
  · exact placeCut fires h _ _
  · split
    · exact placeCut fires (h.frame (by simp)) _ _
    · exact h.frame (by simp)

/-! ## The events of the run map (R84) -/

theorem entryInserted (e : MapEntry) : Packed v o (Machine.entryInserted f e s) := by
  have cut : Packed v o (if e.severity == .major && cutsOutMajor s then (Machine.cutOut f e false s).1 else s) := by
    split
    · exact cutOut fires h _ _
    · exact h
  have limited {t : State} (cut : Packed v o t) :
      Packed v o (if e.kind == .join then Machine.joinLimit f e t else (t, false)).1 := by
    split
    · exact joinLimit fires cut _
    · exact cut
  have checked {r : State × Bool} (limited : Packed v o r.1) :
      Packed v o (if e.blocker && !r.2 then Machine.checkPlan f r.1 else r.1) := by
    split
    · exact checkPlan fires limited
    · exact limited
  unfold Machine.entryInserted
  split
  · dsimp only
    split
    · exact changeCut fires (checked (limited cut)) _
    · exact checked (limited cut)
  · exact h

theorem entryUpgraded (e : MapEntry) : Packed v o (Machine.entryUpgraded f e s) := by
  unfold Machine.entryUpgraded
  split_ifs
  · exact checkPlan fires (cutOut fires h _ _)
  · exact checkPlan fires h
  · exact h

theorem entryClosed (e : MapEntry) : Packed v o (Machine.entryClosed f s e) := by
  have released (final : Nat) : Packed v o (releaseCut f final s) := by
    unfold releaseCut
    split
    · exact h
    · split
      · exact h
      · exact moveCut fires h _ _
  unfold Machine.entryClosed
  split
  · exact checkPlan fires (released _)
  · exact h

end Fires

/-! ## Fires (R96): one package closes and the next one opens -/

theorem fireCut (n : Nat) (c : Cut) (k extra : Nat) (s : State) (h : Packed v o s) :
    Packed v o (Machine.fireCut n c k extra s) := by
  induction n generalizing c k extra s with
  | zero => exact h
  | succ n ih =>
    unfold Machine.fireCut
    split
    · exact h
    · rename_i p opened
      split
      · exact retype ih h
      · obtain rfl := h.of_openPackage opened
        have pulsed : Packed v true (s.setFormer { s.former with cutHigh := true }) :=
          h.frame (packageView_setFormer rfl)
        have tested : Packed v true (testMarkAt (k - p.startPos)
            (s.setFormer { s.former with cutHigh := true })) := pulsed.frame (by simp)
        have switched := (tested.closeRecord k c.closeReason p).frame (packageView_switchStaged k _)
        have planned := planIfDue ih (switched.openRecord k extra)
        have told (t : State) (e : MapEntry) (h : Packed v true t) :
            Packed v true (Machine.entryClosed (Machine.fireCut n) t e) := entryClosed ih h e
        dsimp only
        refine foldl told _ ?_
        split
        · exact planned.frame (by simp)
        · exact planned

theorem fire (c : Cut) (k extra : Nat) (s : State) (h : Packed v o s) : Packed v o (Machine.fire c k extra s) :=
  fireCut _ c k extra s h

theorem fireDue (n : Nat) (h : Packed v o s) : Packed v o (Machine.fireDue n s) := by
  induction n generalizing s with
  | zero => exact h
  | succ n ih =>
    unfold Machine.fireDue
    split
    · exact h
    · exact ih (fire _ _ _ _ (h.frame (by simp)))

theorem formerPulse (h : Packed v o s) : Packed v o (Machine.formerPulse s) := by
  unfold Machine.formerPulse
  split
  · exact planIfDue fire (fireDue _ (h.frame (by simp)))
  · exact h

/-! ## Offers and hand-overs with the former told (R84) -/

variable (h : Packed v o s)
include h

theorem offerEntry (e : MapEntry) : Packed v o (Machine.offerEntry e s).1 := by
  have offered : Packed v o (offerRaw e s).1 := h.frame (by simp)
  unfold Machine.offerEntry
  dsimp only
  split
  · exact entryInserted fire offered _
  · exact offered

theorem offerPoint (k : EntryKind) : Packed v o (Machine.offerPoint k s) := by
  have offered : Packed v o (offerLocal k s).1 := h.frame (by simp)
  unfold Machine.offerPoint
  dsimp only
  split
  · exact entryInserted fire offered _
  · exact offered

theorem tellAll (l : List Handover) : Packed v o (Machine.tellAll l s) := by
  refine foldl (fun t event h => ?_) l h
  cases event with
  | inserted e => exact entryInserted fire h e
  | upgraded e => exact entryUpgraded fire h e
  | closed e => exact entryClosed fire h e

end Packed

end Sys2Proof.Machine
end

section
/-!
PROOF. The package table through station control, the measuring inputs and the regulation tick: what a run that goes
on leaves of it.
-/

namespace Sys2Proof.Machine

open Sys2Proof.Safety

@[simp] theorem packageView_resumeOwn (before : List LocalCause) (s : State) :
    packageView (resumeOwn before s) = packageView s := by
  unfold resumeOwn; split <;> simp

@[simp] theorem packageView_takePeer (p : PeerHalt) (s : State) :
    packageView (s.setStation (s.station.takePeer p)) = packageView s := packageView_setStation rfl rfl

@[simp] theorem packageView_clearCauses (force : Bool) (s : State) :
    packageView (clearCauses force s) = packageView s := by
  unfold clearCauses
  split
  · rfl
  · dsimp only
    rw [packageView_resumeOwn, packageView_settleRemoval]
    exact packageView_setStation rfl rfl

@[simp] theorem packageView_takeResume (x : Nat) (s : State) : packageView (takeResume x s) = packageView s := by
  unfold takeResume
  split
  · rw [packageView_settleRemoval, packageView_enqueue]
    exact packageView_setStation rfl rfl
  · rfl

/-- A GO takes READY to RUN, within the run (R152). -/
theorem packageView_takeGo {s : State} (ready : s.station.state = .ready) (origin : Nat) :
    packageView (takeGo origin s) = packageView s := by
  simp only [takeGo, packageView_loadDwell, packageView_openRow, packageView_openWindow,
    packageView_refreshPace, packageView_enqueue]
  exact packageView_enter (inRun_of_state ready rfl) rfl rfl

@[simp] theorem packageView_dwellPulse (s : State) : packageView (dwellPulse s) = packageView s := by
  unfold dwellPulse; split <;> simp

@[simp] theorem packageView_advance (n : Nat) (s : State) : packageView (advance n s) = packageView s := by
  unfold advance; dsimp only; split <;> simp

@[simp] theorem packageView_countDropped (s : State) : packageView (countDropped s) = packageView s :=
  packageView_congr (by simp)

@[simp] theorem packageView_joinArrivals (a : Arrival) (s : State) :
    packageView (joinArrivals a s) = packageView s := by
  have counted (t : State) : packageView (countArrivalDropped t) = packageView t := rfl
  unfold joinArrivals; dsimp only; (repeat' split) <;> simp [counted]

@[simp] theorem packageView_stageBank (k : Nat) (s : State) : packageView (stageBank k s) = packageView s := by
  unfold stageBank; dsimp only; (repeat' split) <;> simp

@[simp] theorem packageView_computeOffers (s : State) : packageView (computeOffers s) = packageView s := rfl
@[simp] theorem packageView_tickSetpoint (s : State) : packageView (tickSetpoint s) = packageView s :=
  packageView_congr (by simp)
@[simp] theorem packageView_tickPeriod (s : State) : packageView (tickPeriod s) = packageView s :=
  packageView_congr (by simp)

namespace Packed

variable {v : RunView} {o : Bool} {s : State} (h : Packed v o s)
include h

theorem enqueue (b : TxBody) : Packed v o (Machine.enqueue b s) := h.frame (packageView_enqueue b s)
theorem refreshPace : Packed v o (Machine.refreshPace s) := h.frame (packageView_refreshPace s)

/-! ## Station control -/

theorem stopTwist : Packed v o (Machine.stopTwist s) := by
  unfold Machine.stopTwist
  split
  · exact tellAll (h.frame (by simp)) _
  · exact h

theorem stopKnot : Packed v o (Machine.stopKnot s) := by
  unfold Machine.stopKnot
  split
  · exact tellAll (h.frame (by simp)) _
  · exact h

theorem enter {target : StationState} (run : s.inRun = true) (goesOn : target.inRun = true) :
    Packed v o (s.setStation (s.station.enter target)) := h.frame (packageView_enter run goesOn rfl)

theorem enterStopped (run : s.inRun = true) : Packed v o (Machine.enterStopped s) := by
  have off : Packed v o (clearDwell (s.setStation (s.station.enter .stopped))) :=
    (h.enter run rfl).frame (packageView_clearDwell _)
  have stilled : Packed v o ((clearDwell (s.setStation (s.station.enter .stopped))).setPace
      { (clearDwell (s.setStation (s.station.enter .stopped))).pace with run := 0 }) := off.frame rfl
  have discarded := stilled.stopTwist.stopKnot
  unfold Machine.enterStopped
  dsimp only
  split
  · split
    · exact discarded.frame (by simp)
    · exact (discarded.offerPoint _).refreshPace
  · exact (discarded.offerPoint _).refreshPace

theorem actLevel (l : Level) : Packed v o (Machine.actLevel l s) := by
  unfold Machine.actLevel
  split
  · exact h.frame (by simp)
  · split
    · exact h.frame (packageView_stopFromReady (inRun_of_state ‹_› rfl))
    · exact h.enterStopped (inRun_of_state ‹_› rfl)
    · exact h.enterStopped (inRun_of_state ‹_› rfl)
    · exact h

theorem raiseLocal (c : LocalCause) : Packed v o (Machine.raiseLocal c s) := by
  unfold Machine.raiseLocal
  split
  · exact actLevel (h.frame (by simp)) _
  · exact h

theorem takeHalt (e : ListenEntry) (p : PeerHalt) : Packed v o (Machine.takeHalt e p s) := by
  have taken (r : PeerHalt) : Packed v o (s.setStation (s.station.takePeer r)) := h.frame (by simp)
  unfold Machine.takeHalt
  dsimp only
  split
  · split
    · exact ((taken _).actLevel _).enqueue _
    · exact h.frame (by simp)
  · exact h

/-! ## Pulses, strokes and points -/

theorem writeDwell : Packed v o (Machine.writeDwell s) := by
  unfold Machine.writeDwell
  split
  · split
    · exact h.frame (by simp)
    · exact h.offerPoint _
  · exact h.offerPoint _

theorem writeJoin : Packed v o (Machine.writeJoin s) := by
  unfold Machine.writeJoin
  split
  · split
    · exact h.frame (by simp)
    · exact h.offerPoint _
  · exact h.offerPoint _

theorem beginDwell : Packed v o (Machine.beginDwell s) := by
  unfold Machine.beginDwell
  split
  · exact writeDwell (h.frame (by simp))
  · exact h

theorem closeWindow (ran : Bool) : Packed v o (Machine.closeWindow ran s) := by
  have settled : Packed v o (settledWindow ran s) :=
    h.frame (by cases ran <;> simp [settledWindow, nextWindow, evaluatedWindow, storedWindow])
  have closed : Packed v o (closedWindow ran s) := settled.tellAll _
  rw [closeWindow_eq]
  split
  · exact closed
  · exact closed.frame (by simp)

theorem twistPulse (n : Nat) (ran : Bool) : Packed v o (Machine.twistPulse n ran s) := by
  unfold Machine.twistPulse
  split
  · dsimp only
    split
    · exact closeWindow (h.frame (by simp)) ran
    · exact h.frame (by simp)
  · exact h

theorem closeRow : Packed v o (Machine.closeRow s) := by
  have opened : Packed v o (openedRow s) :=
    h.frame (by simp [openedRow, meshedRow, knottedRow])
  have told : Packed v o (toldRow s) := opened.tellAll _
  rw [closeRow_eq]
  split
  · exact told
  · exact told.frame (by simp)

theorem offerArrival (a : Arrival) : Packed v o (Machine.offerArrival s a) := by
  unfold Machine.offerArrival
  split
  · exact h.frame (by simp)
  · exact h.offerEntry _

theorem arrivalsPulse (n : Nat) : Packed v o (Machine.arrivalsPulse n s) := by
  unfold Machine.arrivalsPulse
  exact foldl (fun _ a h => h.offerArrival a) _ (h.frame (by simp))

theorem acceptHandoff (e : ListenEntry) (r : HandoffRead) : Packed v o (Machine.acceptHandoff e r s) := by
  unfold Machine.acceptHandoff
  dsimp only
  split
  · exact offerArrival (h.frame (by simp)) _
  · exact h.frame (by simp)

theorem closeSpan : Packed v o (Machine.closeSpan s) := by
  rw [closeSpan_eq]
  dsimp only
  generalize (if slipLimit s < slipOf s.length.la s.length.lb then s.length.badSpans + 1 else 0) = bad
  split
  · split
    · exact offerEntry (h.frame (by rfl)) _
    · exact h.frame (by simp)
  · exact h.frame (by rfl)

theorem slipPulse (n : Nat) : Packed v o (Machine.slipPulse n s) := by
  unfold Machine.slipPulse
  dsimp only
  split_ifs
  · exact h
  · exact closeSpan (h.frame (by simp))
  · exact h.frame (by simp)

theorem activePulse : Packed v o (Machine.activePulse s) := by
  have retained : Packed v o (retain s.pos (advance s.activeStep (dwellPulse s))) := h.frame (by simp)
  have measured : Packed v o (beforeArrivals s) :=
    (retained.twistPulse s.activeStep (s.station.state == .run)).formerPulse.frame (by simp [beforeArrivals])
  cases run : s.inRun
  · rwa [activePulse_outside run]
  · rw [activePulse_of_inRun run]
    exact (measured.arrivalsPulse _).slipPulse _

/-! ## The regulation tick -/

theorem tickDwell : Packed v o (Machine.tickDwell s) := by
  unfold Machine.tickDwell
  dsimp only
  split_ifs
  · exact beginDwell (h.frame (by simp))
  · exact h.frame (by simp)
  · exact h

theorem tickRamp : Packed v o (Machine.tickRamp s) := by
  unfold Machine.tickRamp
  split
  · exact h.frame (by simp)
  · rename_i easing
    dsimp only
    split
    · exact enterStopped (h.frame (by simp)) (inRun_of_state easing rfl)
    · exact h.frame (by simp)
  · exact h

theorem tickPace : Packed v o (Machine.tickPace s) := by
  unfold Machine.tickPace
  split
  · exact (tickRamp (h.frame (by rfl))).frame (packageView_tickPeriod _)
  · exact h

theorem tick : Packed v o (Machine.tick s) := by
  unfold Machine.tick
  split
  · exact h
  · exact h.tickDwell.tickPace.frame (by simp)

end Packed

end Sys2Proof.Machine
end

section
/-!
PROOF. The package table through run start, END, requests, resets and START, and the step lemma on it.
-/

namespace Sys2Proof.Machine

open Sys2Proof.Safety

/-! ## The law as bounds and table -/

theorem packageLawful_iff (s : State) :
    PackageLawful s ↔ runBounds s ∧ Packed (runView s) (s.inRun && s.forming) s := by
  refine and_congr_right fun _ =>
    ⟨fun ⟨fits, opened⟩ => ⟨rfl, ?_, ?_⟩, fun ⟨_, fits, opened⟩ => ⟨?_, ?_⟩⟩
  · simpa [recordStates] using fits
  · rw [count_opened_recordStates, opened]
  · simpa [recordStates] using fits
  · rw [← opened, count_opened_recordStates]

/-- Within unchanged bounds the table alone decides. -/
theorem Packed.lawful {s t : State} (h : Packed (runView s) (s.inRun && s.forming) t) (lawful : PackageLawful s) :
    PackageLawful t := by
  obtain ⟨⟨starting, pending⟩, -⟩ := lawful
  obtain ⟨view, fits, opened⟩ := h
  obtain ⟨start, restart, run, state⟩ := RunView.mk.inj view
  have forming : t.forming = s.forming := by rw [State.forming, cfg_congr start, State.forming]
  refine (packageLawful_iff t).mpr
    ⟨⟨fun early => ?_, fun restarts => ?_⟩, rfl, fits, by rw [opened, run, forming]⟩
  · have here := starting (start ▸ early)
    rw [here] at state
    simpa using state
  · rw [run]
    exact pending (restart ▸ restarts)

theorem packageLawful_congr {s t : State} (lawful : PackageLawful s) (same : packageView t = packageView s) :
    PackageLawful t :=
  Packed.lawful (((packageLawful_iff s).mp lawful).2.frame same) lawful

/-- Without a run no record is OPEN, and the bounds hold of any block and station. -/
theorem packageLawful_of_no_run {t : State} (h : Packed (runView t) false t) (idle : t.inRun = false)
    (starting : t.start.phase ≠ .over → t.station.state = .start) : PackageLawful t := by
  refine (packageLawful_iff t).mpr ⟨⟨starting, fun _ => idle⟩, ?_⟩
  rwa [idle]

/-- A table without an OPEN record, in whatever bounds. -/
theorem Packed.rebound {v : RunView} {o : Bool} {s t : State} (h : Packed v o s)
    (same : recordStates t.former = recordStates s.former) : Packed (runView t) o t :=
  ⟨rfl, same ▸ h.fits, same ▸ h.opened⟩

theorem packed_of_no_run {s : State} (lawful : PackageLawful s) (idle : s.inRun = false) :
    Packed (runView s) false s := by
  have h := ((packageLawful_iff s).mp lawful).2
  rwa [idle] at h

/-! ## Run start and END (R91, R111, R113, R151, R157) -/

/-- The blocks at run start open the first package of a forming station (R113). -/
theorem Packed.startBlocks {v : RunView} {s : State} (h : Packed v false s) (k : Nat) :
    Packed v s.forming (Machine.startBlocks k s) := by
  have cleared : Packed v false (clearedBlocks k s) := h.frame (packageView_congr
    ⟨clearedBlocks_start k s, clearedBlocks_station k s, clearedBlocks_former k s⟩)
  have forming : (clearedBlocks k s).forming = s.forming := by
    rw [State.forming, cfg_congr (clearedBlocks_start k s), State.forming]
  rw [startBlocks_eq]
  cases forms : s.forming with
  | false => exact cleared.frame rfl
  | true =>
    have emptied : Packed v false ((clearedBlocks k s).setFormer
        { (clearedBlocks k s).former with cuts := [], cutsRefused := 0 }) :=
      cleared.frame (packageView_setFormer rfl)
    rw [if_pos rfl, startPackages, forming, if_pos forms]
    exact planIfDue fire (emptied.openRecord 0 0)

theorem startRun_packageLawful {s : State} (lawful : PackageLawful s) (idle : s.station.state = .idle)
    (free : s.station.restartPending = false) (k : Nat) : PackageLawful (startRun k s) := by
  have still : s.inRun = false := by rw [State.inRun, idle]; rfl
  have ⟨⟨starting, _⟩, _⟩ := lawful
  have ended : s.start.phase = .over := by
    by_contra early
    rw [idle] at starting
    exact absurd (starting early) (by decide)
  have blocks := (packed_of_no_run lawful still).startBlocks k
  have start : (startBlocks k s).start = s.start := congrArg RunView.start blocks.view
  have ready : Packed (runView (readied k s)) s.forming (readied k s) := blocks.rebound (by simp [readied])
  have forming : (readied k s).forming = s.forming := by
    rw [State.forming, readied, cfg_congr (changeState_start _ _), cfg_congr start, State.forming]
  have station := readied_station k s
  have run : (readied k s).inRun = true := by rw [State.inRun, station]; rfl
  have begun : PackageLawful (readied k s) := by
    refine (packageLawful_iff _).mpr ⟨⟨fun early => ?_, fun restarts => ?_⟩, ?_⟩
    · exact absurd (by rw [readied, changeState_start, start, ended]) early
    · rw [station] at restarts
      exact absurd (restarts.symm.trans free) (by decide)
    · rw [run, forming]
      exact ready
  rw [startRun, ← readied]
  split
  · rw [← forming, ← Bool.true_and (readied k s).forming, ← run] at ready
    exact (ready.raiseLocal .brk).lawful begun
  · exact begun

/-- END's close leaves no record OPEN (R111). -/
theorem Packed.closeAtEnd {v : RunView} {o : Bool} {s : State} (h : Packed v o s) :
    Packed v false (Machine.closeAtEnd s) := by
  unfold Machine.closeAtEnd
  split
  · rename_i none
    cases o with
    | false => exact h
    | true =>
      have opened := h.opened
      rw [count_opened_recordStates] at opened
      have unopened : s.former.table.countP (fun r => r.state == .opened) = 0 :=
        List.countP_eq_zero.mpr (List.find?_eq_none.mp none)
      rw [unopened] at opened
      cases opened
  · exact (h.closeRecord _ _ _).frame (packageView_setCuts _ _)

/-- The blocks at END but for station control: marks, banks and arrivals (R12, R125, R146, R157). -/
def endedBlocks (s : State) : State :=
  let unmarked := if s.forming then s.setMarks { s.marks with next := none } else s
  let banked := unmarked.setBanks (mapTable Bank.atEnd unmarked.banks)
  banked.setPace { banked.pace with arrivals := [] }

/-- The cause set emptied (R157). -/
def emptiedSet (s : State) : State := s.setStation { s.station with locals := [], peers := [] }

/-- The cause set emptied at END, RESUME queued for a local cause (R157, R168). -/
def endedCauses (s : State) : State :=
  let resumed := resumeOwn s.station.locals (emptiedSet s)
  resumed.setStation resumed.station.noteEmptied

theorem endRun_eq (s : State) : endRun s = changeState .idle (endedCauses (endedBlocks (closeAtEnd s))) := rfl

@[simp] theorem packageView_endedBlocks (s : State) : packageView (endedBlocks s) = packageView s := by
  unfold endedBlocks; dsimp only; split <;> simp

@[simp] theorem packageView_endedCauses (s : State) : packageView (endedCauses s) = packageView s := by
  have emptied : packageView (emptiedSet s) = packageView s := packageView_setStation rfl rfl
  have noted (t : State) : packageView (t.setStation t.station.noteEmptied) = packageView t :=
    packageView_setStation rfl rfl
  rw [endedCauses, noted, packageView_resumeOwn, emptied]

/-- A run that has ended leaves IDLE with no record OPEN (R111, R157). -/
theorem endRun_packageLawful {s : State} (lawful : PackageLawful s)
    (stands : s.station.state = .ready ∨ s.station.state = .stopped) : PackageLawful (endRun s) := by
  have ⟨⟨starting, _⟩, _⟩ := lawful
  have begun : s.start.phase = .over := by
    by_contra early
    obtain here | here := stands <;> exact absurd ((starting early).symm.trans here) (by decide)
  have ended : Packed (runView s) false (endedCauses (endedBlocks (closeAtEnd s))) :=
    ((packageLawful_iff s).mp lawful).2.closeAtEnd.frame (by simp)
  have start := congrArg RunView.start ended.view
  rw [endRun_eq]
  refine packageLawful_of_no_run (ended.rebound (by simp)) ?_ fun early => ?_
  · rw [State.inRun, changeState_station]; rfl
  · exact absurd (by rw [changeState_start, ← begun]; exact congrArg StartBlock.phase start) early

end Sys2Proof.Machine
end

section
/-!
PROOF. The package table through requests, frames, the line's own events, reset and START, and the step lemma on it.
-/

namespace Sys2Proof.Machine

open Sys2Proof.Safety

/-- A lawful table stays lawful under whatever keeps its bounds and its number of OPEN records. -/
theorem packageLawful_of_kept {s t : State} (lawful : PackageLawful s)
    (kept : ∀ {v : RunView} {o : Bool}, Packed v o s → Packed v o t) : PackageLawful t :=
  (kept ((packageLawful_iff s).mp lawful).2).lawful lawful

theorem takeGo_packageLawful {s : State} (lawful : PackageLawful s) (ready : s.station.state = .ready)
    (origin : Nat) : PackageLawful (takeGo origin s) :=
  packageLawful_congr lawful (packageView_takeGo ready origin)

theorem raiseLocal_packageLawful {s : State} (lawful : PackageLawful s) (c : LocalCause) :
    PackageLawful (raiseLocal c s) :=
  packageLawful_of_kept lawful fun h => h.raiseLocal c

/-! ## Requests (R190) -/

/-- A RESTART is accepted in IDLE and HELD only, where no run exists (R158). -/
theorem restart_packageLawful {s : State} (lawful : PackageLawful s)
    (stands : s.station.state = .idle ∨ s.station.state = .held) :
    PackageLawful (s.setStation { s.station with restartPending := true, answerGone := false }) := by
  have still : s.inRun = false := by
    rw [State.inRun]
    obtain here | here := stands <;> rw [here] <;> rfl
  exact packageLawful_of_no_run ((packed_of_no_run lawful still).rebound rfl) still lawful.1.1

/-- Only RUN opens a package, and only while no restart is pending. -/
theorem perform_packageLawful {s : State} (lawful : PackageLawful s) (code : Nat) (args : List Byte)
    (free : code = 8 → s.station.restartPending = false) : PackageLawful (perform code args s).1 := by
  have same {t : State} (same : packageView t = packageView s) : PackageLawful t := packageLawful_congr lawful same
  -- one case for each request code of R190, in the order of the codes
  unfold perform
  split
  case h_1 => unfold doStatus; dsimp only; (repeat' split) <;> exact lawful
  case h_2 => unfold doLine; dsimp only; (repeat' split) <;> exact same rfl
  case h_3 => unfold doPeers inService; dsimp only; (repeat' split) <;> exact lawful
  case h_4 => unfold doMap inService; (repeat' split) <;> exact lawful
  case h_5 => unfold doPackage inService; (repeat' split) <;> exact lawful
  case h_6 => unfold doBankRead inService; dsimp only; (repeat' split) <;> exact lawful
  case h_7 => unfold doBankWrite inService; dsimp only; (repeat' split) <;> exact same (by simp [refuse])
  case h_8 =>
    unfold doRun
    split
    · split_ifs with _ idle
      · exact lawful
      · exact lawful
      · exact lawful
      · exact startRun_packageLawful lawful (not_not.mp idle) (free rfl) _
    · exact lawful
  case h_9 => unfold doChange; (repeat' split) <;> exact same (by simp [refuse])
  case h_10 =>
    unfold doGo
    split
    · split
      · exact takeGo_packageLawful lawful ‹_› _
      · exact lawful
    · exact lawful
  case h_11 =>
    unfold doStop
    split
    · split
      · exact lawful
      · split_ifs
        · exact lawful
        · exact raiseLocal_packageLawful lawful _
    · exact lawful
  case h_12 => unfold doClear inService; dsimp only; (repeat' split) <;> exact same (by simp [refuse])
  case h_13 =>
    unfold doEnd
    split
    · split
      · exact endRun_packageLawful lawful ‹_›
      · exact lawful
    · exact lawful
  case h_14 =>
    unfold doRestart
    split
    · split
      · exact restart_packageLawful lawful ‹_›
      · exact lawful
    · exact lawful
  case h_15 => exact lawful

theorem takeAsk_packageLawful {s : State} (lawful : PackageLawful s) (f : RxFrame) :
    PackageLawful (takeAsk f s) := by
  have held : PackageLawful (holdPlace true s) := packageLawful_congr lawful rfl
  have performed (code : Nat) (args : List Byte) : PackageLawful (performAsk code args (holdPlace true s)).1 := by
    unfold performAsk
    split
    · exact held
    · rename_i served
      refine perform_packageLawful held _ _ fun run => ?_
      subst run
      simp only [barred] at served
      simp_all
  unfold takeAsk
  split
  · split
    · unfold askAll
      split_ifs with those
      · exact lawful
      · exact perform_packageLawful lawful _ _ fun run => by simp [run] at those
      · exact packageLawful_congr lawful rfl
    · unfold askHere
      split
      · exact packageLawful_congr (performed _ _) rfl
      · exact packageLawful_congr lawful rfl
  · exact lawful

/-! ## Frames (R187, R188) -/

theorem handOn_packageLawful {s : State} (lawful : PackageLawful s) (kind : BitVec 4) (f : RxFrame) :
    PackageLawful (handOn kind f s) := by
  unfold handOn
  split_ifs
  · exact takeAsk_packageLawful lawful f
  · exact lawful
  · unfold takePace; split <;> exact packageLawful_congr lawful rfl
  · unfold haltFrame
    split
    · exact packageLawful_of_kept lawful fun h => h.takeHalt _ _
    · exact lawful
  · unfold resumeFrame; split <;> exact packageLawful_congr lawful (by simp)
  · unfold goFrame
    split
    · split
      · exact takeGo_packageLawful lawful ‹_› _
      · exact lawful
    · exact lawful
  · unfold handoffFrame
    dsimp only
    split
    · split
      · exact packageLawful_of_kept lawful fun h => h.acceptHandoff _ _
      · exact packageLawful_congr lawful rfl
    · exact packageLawful_congr lawful rfl
  · exact lawful

theorem receive_packageLawful {s : State} (lawful : PackageLawful s) (kind : BitVec 4) (f : RxFrame) :
    PackageLawful (receive kind f s) := by
  have heard (fate : RxFate) : PackageLawful (hearFrame fate s) := packageLawful_congr lawful rfl
  unfold receive
  dsimp only
  split_ifs
  · exact lawful
  · exact packageLawful_congr lawful rfl
  · split
    · exact packageLawful_congr (s := hearFrame _ s) (heard (rxFate s.own kind f)) rfl
    · exact heard _
    · exact packageLawful_congr (s := hearFrame _ s) (heard (rxFate s.own kind f)) rfl
    · exact handOn_packageLawful (heard _) kind f

theorem receiveLine_packageLawful {s : State} (lawful : PackageLawful s) (chars : List LineByte) :
    PackageLawful (receiveLine chars s) := by
  unfold receiveLine receiveBytes
  split_ifs
  · exact lawful
  · exact packageLawful_congr lawful rfl
  · exact packageLawful_congr lawful rfl
  · exact packageLawful_congr lawful rfl
  · exact receive_packageLawful lawful _ _

/-! ## The line's own events (R181 to R186) -/

@[simp] theorem packageView_sendPick (p : Pick) (n : Nat) (s : State) :
    packageView (sendPick p n s) = packageView s := packageView_congr (by simp)

/-- A report sent turns a CLOSED record into a REPORTED one, and no OPEN one into another (R93). -/
theorem Packed.reportSent {v : RunView} {o : Bool} {s : State} (h : Packed v o s) (b : TxBody) :
    Packed v o (Machine.reportSent b s) := by
  unfold Machine.reportSent
  split
  · rename_i p
    obtain ⟨view, fits, opened⟩ := h
    refine ⟨view, by simpa [recordStates] using fits, ?_⟩
    rw [count_opened_recordStates] at opened ⊢
    rw [← opened, State.setFormer_former, List.countP_map]
    refine List.countP_congr fun r _ => ?_
    dsimp only [Function.comp]
    split
    · rename_i reported
      simp [reported]
    · rfl
  · exact h.frame (packageView_setStation rfl rfl)
  · exact h

theorem frameSent_packageLawful {s : State} (lawful : PackageLawful s) : PackageLawful (frameSent s) := by
  unfold frameSent
  split
  · exact packageLawful_of_kept lawful fun h => (h.frame (packageView_setPly _ _)).reportSent _
  · split
    · exact packageLawful_congr lawful rfl
    · exact lawful

theorem collide_packageLawful {s : State} (lawful : PackageLawful s) : PackageLawful (collide s) := by
  refine packageLawful_congr lawful ?_
  unfold collide
  dsimp only
  (repeat' split) <;> simp

theorem nextInBurst_packageLawful {s : State} (lawful : PackageLawful s) : PackageLawful (nextInBurst s) := by
  refine packageLawful_congr lawful ?_
  unfold nextInBurst
  (repeat' split) <;> simp

theorem startAccess_packageLawful {s : State} (lawful : PackageLawful s) : PackageLawful (startAccess s) := by
  refine packageLawful_congr lawful ?_
  unfold startAccess
  (repeat' split) <;> simp

/-! ## Every command but those of reset and START -/

/-- No other command leaves the table unlawful. -/
theorem exec_packageLawful {c : Instr} {s t : State} (performed : exec c s = .next t) (lawful : PackageLawful s)
    (other : startsOver c = false) : PackageLawful t := by
  have same {t : State} (same : packageView t = packageView s) : PackageLawful t := packageLawful_congr lawful same
  cases c <;> cases performed
  case coldReset | resetRelease | blockReadAttempt | readRetry | warmRestart => cases other
  case activeSourcePulse => exact packageLawful_of_kept lawful Packed.activePulse
  case nonActiveSourcePulse => unfold nonActivePulse; (repeat' split) <;> exact same rfl
  case spindlePulse => unfold spindlePulse; split <;> exact same rfl
  case rowStroke =>
    unfold rowStroke
    split
    · exact packageLawful_of_kept lawful Packed.closeRow
    · exact lawful
  case sectionEdge => unfold sectionEdge; split <;> exact same rfl
  case jniEdge =>
    unfold jniEdge
    split
    · exact packageLawful_of_kept lawful Packed.writeJoin
    · exact lawful
  case brkActive =>
    have pressed : PackageLawful (s.setStation { s.station with brkActive := true }) :=
      same (packageView_setStation rfl rfl)
    split
    · exact lawful
    · exact raiseLocal_packageLawful pressed _
  case brkInactive => exact same (packageView_setStation rfl rfl)
  case stpEdge => exact raiseLocal_packageLawful lawful _
  case staEdge =>
    split
    · split
      · rename_i idle free
        exact startRun_packageLawful lawful idle (by simp_all) _
      · exact lawful
    · exact takeGo_packageLawful lawful ‹_› _
    all_goals exact lawful
  case clrEdge => split <;> exact same (by simp)
  case regulationTick => exact packageLawful_of_kept lawful Packed.tick
  case dwellStart => exact packageLawful_of_kept lawful Packed.beginDwell
  case pacePeriodExpiry => exact same (by simp)
  case peerStale => unfold staleAt; dsimp only; split <;> exact same rfl
  case markShiftComplete => exact same rfl
  case cutPulseEnd => exact same rfl
  case accessStart => exact startAccess_packageLawful lawful
  case frameSent => exact frameSent_packageLawful lawful
  case collision => exact collide_packageLawful lawful
  case normalHoldTimeout => unfold holdTimeout; split <;> exact same rfl
  case receiveError => exact receiveLine_packageLawful lawful _
  case burstNextFrame => exact nextInBurst_packageLawful lawful
  all_goals exact receive_packageLawful lawful _ _

/-! ## Reset and START (R114, R197 to R203) -/

/-- Until START is over no run exists, so no record is OPEN. -/
theorem packed_of_starting {s : State} (lawful : PackageLawful s) (starting : s.start.phase ≠ .over) :
    Packed (runView s) false s :=
  packed_of_no_run lawful (by rw [State.inRun, lawful.1.1 starting]; rfl)

theorem toHeld_packageLawful {v : RunView} {s : State} (h : Packed v false s) (r : StartReason) :
    PackageLawful (toHeld r s) :=
  packageLawful_of_no_run (h.rebound rfl) rfl fun early => absurd rfl early

theorem toIdle_packageLawful {v : RunView} {s : State} (h : Packed v false s) : PackageLawful (toIdle s) := by
  refine packageLawful_of_no_run (h.rebound ?_) ?_ fun early => ?_
  · rw [toIdle, changeState_former]; rfl
  · rw [State.inRun, toIdle, changeState_station]; rfl
  · exact absurd (by rw [toIdle, changeState_start]; rfl) early

theorem judgeBlock_packageLawful {v : RunView} {s : State} (h : Packed v false s) (bs : List Byte) :
    PackageLawful (judgeBlock bs s) := by
  have read : Packed (runView (s.setStart { s.start with image := some bs })) false
      (s.setStart { s.start with image := some bs }) := h.rebound rfl
  have taken := read.rebound (t := takeValues bs (s.setStart { s.start with image := some bs })) (by simp [takeValues])
  unfold judgeBlock
  dsimp only
  split_ifs
  · exact toHeld_packageLawful read _
  · exact toHeld_packageLawful read _
  · exact toIdle_packageLawful taken
  · exact toHeld_packageLawful taken _

/-- A change of START's block in START is lawful: the station stays in START. -/
theorem setStart_packageLawful {s : State} (lawful : PackageLawful s) (starting : s.start.phase ≠ .over)
    (b : StartBlock) : PackageLawful (s.setStart b) := by
  have state : s.station.state = .start := lawful.1.1 starting
  exact packageLawful_of_no_run ((packed_of_starting lawful starting).rebound rfl)
    (by rw [State.inRun, State.setStart_station, state]; rfl) fun _ => state

theorem readAttempt_packageLawful {s : State} (lawful : PackageLawful s) (r : ReadResult) :
    PackageLawful (readAttempt r s) := by
  unfold readAttempt
  split
  · rename_i attempting
    have starting : s.start.phase ≠ .over := by simp [attempting]
    have counted : Packed (runView (s.setStart (s.start.attempted r))) false (s.setStart (s.start.attempted r)) :=
      (packed_of_starting lawful starting).rebound rfl
    dsimp only
    split
    · exact judgeBlock_packageLawful counted _
    all_goals
      split
      · exact setStart_packageLawful lawful starting _
      · exact toHeld_packageLawful counted _
  · exact lawful

theorem coldReset_packageLawful (s : State) : PackageLawful (coldReset s) :=
  ⟨⟨fun _ => rfl, fun _ => rfl⟩, (by decide : 0 ≤ Config.tableCapacity), rfl⟩

/-- A warm restart comes while a restart is pending, so without a run; the table is kept (R114). -/
theorem warmRestart_packageLawful {s : State} (lawful : PackageLawful s) (pending : s.station.restartPending = true)
    (straps : Straps) : PackageLawful (warmRestart straps s) := by
  have told : Packed (runView s) false (dropReports s.ply.queue s) :=
    (packed_of_no_run lawful (lawful.1.2 pending)).frame
      (foldl_keeps packageView (fun t (f : QFrame) => reportDrop f.body t)
        (fun t f => packageView_reportDrop f.body t) _ s)
  exact packageLawful_of_no_run (told.rebound (by rfl)) (by rfl) fun _ => rfl

theorem exec_startsOver_packageLawful {c : Instr} {s t : State} (performed : exec c s = .next t)
    (lawful : PackageLawful s) (starts : startsOver c = true) : PackageLawful t := by
  cases c <;> cases performed
  case coldReset => exact coldReset_packageLawful s
  case resetRelease =>
    unfold releaseReset
    split
    · exact setStart_packageLawful lawful (by simp [*]) _
    · exact lawful
  case blockReadAttempt => exact readAttempt_packageLawful lawful _
  case readRetry =>
    unfold retryRead
    split
    · exact setStart_packageLawful lawful (by simp [*]) _
    · exact lawful
  case warmRestart =>
    unfold takeWarmRestart
    split
    · exact warmRestart_packageLawful lawful (by simp_all) _
    · exact lawful
  all_goals cases starts

/-- Settles O55: a waiting command keeps the table lawful, and an idle slot of the line does not touch it. -/
theorem stepsKeepOneOpenPackage : Obligations.StepsKeepOneOpenPackage := by
  intro s t lawful stepped
  unfold step at stepped
  split at stepped
  · cases stepped
    refine packageLawful_congr lawful ?_
    unfold idleSlot
    split <;> rfl
  · rename_i c rest _
    have taken : PackageLawful (s.setPending rest) := packageLawful_congr lawful rfl
    cases starts : startsOver c
    · exact exec_packageLawful stepped taken starts
    · exact exec_startsOver_packageLawful stepped taken starts

end Sys2Proof.Machine
end

section
/-!
PROOF. What a frame sent and a collision do to the queue, to the access and to the frame's owner.
-/

namespace Sys2Proof.Machine

/-! ## The frame in flight -/

theorem takeFirst_at {α : Type} {p : α → Bool} {pre post : List α} {y : α}
    (before : ∀ x ∈ pre, p x = false) (holds : p y = true) :
    takeFirst p (pre ++ y :: post) = some (y, pre ++ post) := by
  induction pre with
  | nil => simp [takeFirst, holds]
  | cons x xs ih =>
    obtain ⟨first, rest⟩ := List.forall_mem_cons.mp before
    simp [takeFirst, first, ih rest]

theorem collideQueue_at {pre post : List QFrame} {f : QFrame} (before : ∀ g ∈ pre, g.inFlight = false)
    (flies : f.inFlight = true) :
    collideQueue (pre ++ f :: post) = if f.collisions + 1 < Config.collisionLimit
      then (pre ++ { f with collisions := f.collisions + 1, inFlight := false } :: post, none)
      else (pre ++ post, some f.body) := by
  induction pre with
  | nil => simp [collideQueue, flies]
  | cons g gs ih =>
    obtain ⟨first, rest⟩ := List.forall_mem_cons.mp before
    rw [List.cons_append, collideQueue, if_neg (by simp [first]), ih rest]
    split <;> rfl

theorem sending_false_iff (p : Ply) :
    p.sending = false ↔ (∀ f ∈ p.queue, f.inFlight = false) ∧ p.paceFlight = none := by
  simp [Ply.sending]

theorem sending_of_queued {p : Ply} {pre post : List QFrame} {f : QFrame} (queue : p.queue = pre ++ f :: post)
    (flies : f.inFlight = true) : p.sending = true := by
  simp [Ply.sending, queue, flies]

theorem frameSent_of_queued {s : State} {pre post : List QFrame} {f : QFrame}
    (queue : s.ply.queue = pre ++ f :: post) (before : ∀ g ∈ pre, g.inFlight = false) (flies : f.inFlight = true) :
    frameSent s = reportSent f.body (s.setPly (continueOrEnd s.cfg.burst { s.ply with
      queue := pre ++ post, idle := 0, hold := s.ply.hold || !f.body.urgent })) := by
  rw [frameSent, queue, takeFirst_at before flies]; rfl

theorem frameSent_of_none_queued {s : State} (none : ∀ g ∈ s.ply.queue, g.inFlight = false) :
    frameSent s = if s.ply.paceFlight.isSome then
      s.setPly (continueOrEnd s.cfg.burst { s.ply with paceFlight := Option.none, idle := 0, hold := true })
    else s := by
  rw [frameSent, takeFirst_none.mpr none]; rfl

/-! ## The frame's owner is told (R93, R158, R183) -/

@[simp] theorem reportSent_ply (b : TxBody) (s : State) : (reportSent b s).ply = s.ply := by
  unfold reportSent; split <;> rfl
@[simp] theorem reportSent_map (b : TxBody) (s : State) : (reportSent b s).map = s.map := by
  unfold reportSent; split <;> rfl
@[simp] theorem reportSent_pace (b : TxBody) (s : State) : (reportSent b s).pace = s.pace := by
  unfold reportSent; split <;> rfl
@[simp] theorem reportSent_banks (b : TxBody) (s : State) : (reportSent b s).banks = s.banks := by
  unfold reportSent; split <;> rfl

theorem reportSent_former_of_other {b : TxBody} (other : ∀ p, b ≠ .pkg p) (s : State) :
    (reportSent b s).former = s.former := by
  unfold reportSent
  split
  · exact absurd rfl (other _)
  · rfl
  · rfl

theorem reportDrop_former_of_other {b : TxBody} (other : ∀ p, b ≠ .pkg p) (s : State) :
    (reportDrop b s).former = s.former := by
  unfold reportDrop
  split
  · exact absurd rfl (other _)
  · rfl
  · rfl

/-- What the station notes of a frame that has left the queue: that a RESTART's ANSWER has gone (R158). -/
def TxBody.noted (b : TxBody) (x : Station) : Station :=
  match b with
  | .answer _ _ true => { x with answerGone := true }
  | _ => x

theorem reportSent_station (b : TxBody) (s : State) : (reportSent b s).station = b.noted s.station := by
  cases b with
  | answer dest payload restart => cases restart <;> rfl
  | _ => rfl

theorem reportDrop_station_eq (b : TxBody) (s : State) : (reportDrop b s).station = b.noted s.station := by
  cases b with
  | answer dest payload restart => cases restart <;> rfl
  | _ => rfl

/-! ## A frame sent (R182) -/

theorem continueOrEnd_eq (burst : Nat) (p : Ply) :
    continueOrEnd burst p = if decide (p.access.getD 0 < burst) && p.pick.isSome then { p with wire := [] }
      else { p with access := none, lte := false, wire := [] } := by
  simp [continueOrEnd, Ply.endAccess]

/-- Settles O33, by the frame in flight: one of the queue, the report, or none. -/
theorem frameSentLeavesTheQueue : Obligations.FrameSentLeavesTheQueue := by
  intro s goesOn after
  have goes (p : Ply) : continueOrEnd s.cfg.burst p = after p := continueOrEnd_eq _ p
  refine ⟨fun pre f post queue before flies => ⟨_, rfl, ?_⟩, fun f none report => ?_, fun still => ?_⟩
  · rw [frameSent_of_queued queue before flies, goes]
    refine ⟨by simp, fun p body => by rw [body]; rfl, fun other => by rw [reportSent_former_of_other other]; rfl, ?_,
      by simp, by simp, by simp⟩
    rw [reportSent_station]
    rfl
  · change Host.Outcome.next (frameSent s) = _
    rw [frameSent_of_none_queued none, report, goes]
    rfl
  · obtain ⟨none, report⟩ := (sending_false_iff _).mp still
    change Host.Outcome.next (frameSent s) = _
    rw [frameSent_of_none_queued none, report]
    rfl

/-! ## A collision (R183, R186) -/

/-- The interface after a collision, but for the frame in flight. -/
def collided (p : Ply) : Ply :=
  { p.endAccess with collisions := sat Config.count16 p.collisions, idle := 0 }

theorem collide_of_queued {s : State} {pre post : List QFrame} {f : QFrame} (report : s.ply.paceFlight = none)
    (queue : s.ply.queue = pre ++ f :: post) (before : ∀ g ∈ pre, g.inFlight = false) (flies : f.inFlight = true) :
    collide s = if f.collisions + 1 < Config.collisionLimit
      then s.setPly { collided s.ply with
        queue := pre ++ { f with collisions := f.collisions + 1, inFlight := false } :: post }
      else reportDrop f.body (s.setPly { (collided s.ply).countDrop with queue := pre ++ post }) := by
  rw [collide, if_pos (sending_of_queued queue flies), report, queue, collideQueue_at before flies]
  by_cases few : f.collisions + 1 < Config.collisionLimit
  · rw [if_pos few, if_pos few]; rfl
  · rw [if_neg few, if_neg few]; rfl

theorem collide_of_report {s : State} {f : PaceFrame} (report : s.ply.paceFlight = some f) :
    collide s = s.setPly ((collided s.ply).collidePace f) := by
  rw [collide, if_pos (by simp [Ply.sending, report]), report]; rfl

/-- Settles O34, by the frame in flight and its collisions so far. -/
theorem collisionEndsTheAccess : Obligations.CollisionEndsTheAccess := by
  intro s ended
  refine ⟨fun pre f post report queue before flies => ?_, fun f report => ?_, fun still => ?_⟩
  · have outcome := collide_of_queued report queue before flies
    refine ⟨fun (few : f.collisions + 1 < Config.collisionLimit) => ?_,
      fun (many : Config.collisionLimit ≤ f.collisions + 1) => ⟨_, rfl, ?_⟩⟩
    · rw [if_pos few] at outcome
      exact congrArg Host.Outcome.next outcome
    · rw [if_neg (Nat.not_lt.mpr many)] at outcome
      rw [outcome]
      refine ⟨by rw [reportDrop_ply]; rfl, fun p body => by rw [body]; rfl,
        fun other => by rw [reportDrop_former_of_other other]; rfl, ?_, by simp, by simp⟩
      rw [reportDrop_station_eq]
      rfl
  · change Host.Outcome.next (collide s) = _
    rw [collide_of_report report, Ply.collidePace, Config.collisionLimit]
    split <;> rfl
  · change Host.Outcome.next (collide s) = _
    rw [collide, if_neg (by simp [still])]

end Sys2Proof.Machine
end

section
/-!
PROOF. The close of a package: with room in the transmit queue the whole state it leaves, and without, what it
leaves of the records, the cut list and the station.
-/

namespace Sys2Proof.Machine

open Sys2Proof.Safety

/-! ## With room for the PKG frames (R93, R110) -/

theorem queueReport_of_room {s : State} {r : PackageRecord} (room : s.ply.queue.length < s.ply.room) :
    queueReport s r = (s.setFormer (s.former.markReport r.number .queued)).setPly { s.ply with
      queue := s.ply.queue ++ [pkgFrame r] } :=
  enqueue_of_room (s := s.setFormer (s.former.markReport r.number .queued)) _ room

/-- A CLOSED record of a number in `l` is QUEUED again. -/
def queuedAgain (l : List PackageRecord) (r : PackageRecord) : PackageRecord :=
  if r.state = .closed ∧ ∃ u ∈ l, u.number = r.number then { r with report := some .queued } else r

theorem queuedAgain_cons (u : PackageRecord) (l : List PackageRecord) (r : PackageRecord) :
    queuedAgain l (if r.number = u.number ∧ r.state = .closed then { r with report := some .queued } else r) =
      queuedAgain (u :: l) r := by
  unfold queuedAgain
  by_cases closed : r.state = .closed <;> by_cases number : r.number = u.number
  · by_cases later : ∃ x ∈ l, x.number = u.number <;> simp [closed, number, later]
  · simp [closed, number, eq_comm (a := u.number)]
  · simp [closed]
  · simp [closed]

theorem foldl_queueReport {l : List PackageRecord} {s : State} (room : s.ply.queue.length + l.length ≤ s.ply.room) :
    l.foldl queueReport s = (s.setFormer { s.former with table := s.former.table.map (queuedAgain l) }).setPly
      { s.ply with queue := s.ply.queue ++ l.map pkgFrame } := by
  induction l generalizing s with
  | nil =>
    have same : queuedAgain [] = id := by funext r; simp [queuedAgain]
    simp [same]; rfl
  | cons u l ih =>
    rw [List.length_cons] at room
    have left : (s.ply.queue ++ [pkgFrame u]).length + l.length ≤ s.ply.room := by
      rw [List.length_append, List.length_singleton]
      omega
    rw [List.foldl_cons, queueReport_of_room (by omega), ih left]
    simp [Former.markReport, Function.comp_def, queuedAgain_cons]
    rfl

/-- A record after the close of the OPEN one (R93, R106). -/
def recordAfterClose (closing : PackageRecord) (unsent : List PackageRecord) (r : PackageRecord) : PackageRecord :=
  if r.state = .opened then closing
  else if r.state = .closed ∧ (r.number = closing.number ∨ ∃ u ∈ unsent, u.number = r.number) then
    { r with report := some .queued }
  else r

/-- The record `p` closed by the bank it was opened with. -/
def closingRecord (k : Nat) (reason : CloseReason) (p : PackageRecord) (s : State) : PackageRecord :=
  p.close (s.packagePage p.bank) k reason s.map.entries

@[simp] theorem queuedAgain_state (l : List PackageRecord) (r : PackageRecord) :
    (queuedAgain l r).state = r.state := by unfold queuedAgain; split <;> rfl
@[simp] theorem queuedAgain_number (l : List PackageRecord) (r : PackageRecord) :
    (queuedAgain l r).number = r.number := by unfold queuedAgain; split <;> rfl

theorem recordAfterClose_eq {closing : PackageRecord} (closed : closing.state = .closed)
    (queued : closing.report = some .queued) (l : List PackageRecord) (r : PackageRecord) :
    (fun x => if x.number = closing.number ∧ x.state = .closed then { x with report := some .queued } else x)
      ((fun x => if x.state = .opened then closing else x) (queuedAgain l r)) = recordAfterClose closing l r := by
  dsimp only
  rw [queuedAgain_state, recordAfterClose]
  split
  · have same : ({ closing with report := some .queued } : PackageRecord) = closing := by rw [← queued]
    rw [if_pos ⟨rfl, closed⟩, same]
  · rw [queuedAgain_state, queuedAgain_number]
    by_cases number : r.number = closing.number ∧ r.state = .closed
    · obtain ⟨number, shut⟩ := number
      rw [if_pos ⟨number, shut⟩, if_pos ⟨shut, .inl number⟩]
      unfold queuedAgain
      split <;> rfl
    · rw [if_neg number, queuedAgain]
      refine if_congr (and_congr_right fun shut => ?_) rfl rfl
      exact (or_iff_right fun same => number ⟨same, shut⟩).symm

/-- The map and the cut list as a close at `k` leaves them (R106 to R108). -/
def takenBelow (k : Nat) (s : State) : State :=
  setCuts (s.former.cuts.filter (fun c => !c.isPackageEnd))
    (s.setMap { s.map with entries := entriesAfter k s.map.entries })

theorem closeRecord_eq (k : Nat) (reason : CloseReason) (p : PackageRecord) (s : State) :
    closeRecord k reason p s =
      queueReport (mapOpen (fun _ => closingRecord k reason p s) (requeueUnsent (takenBelow k s)))
        (closingRecord k reason p s) := rfl

theorem requeueUnsent_of_room {s : State}
    (room : s.ply.queue.length + (unsentOf s.former.table).length ≤ s.ply.room) :
    requeueUnsent s = (s.setFormer { s.former with
      table := s.former.table.map (queuedAgain (unsentOf s.former.table)) }).setPly
      { s.ply with queue := s.ply.queue ++ (unsentOf s.former.table).map pkgFrame } :=
  foldl_queueReport room

/-- The close of the OPEN record with room for the PKG frames of UNSENT records and its own (R93, R106 to R110). -/
theorem closeRecord_of_room {s : State} (k : Nat) (reason : CloseReason) (p : PackageRecord)
    (room : s.ply.queue.length + (unsentOf s.former.table).length < s.ply.room) :
    closeRecord k reason p s = ((takenBelow k s).setFormer { (takenBelow k s).former with
        table := s.former.table.map (recordAfterClose (closingRecord k reason p s) (unsentOf s.former.table)) }).setPly
      { s.ply with queue := s.ply.queue ++ (unsentOf s.former.table).map pkgFrame
        ++ [pkgFrame (closingRecord k reason p s)] } := by
  generalize closing : closingRecord k reason p s = closed
  have shut : closed.state = .closed := by rw [← closing]; rfl
  have queued : closed.report = some .queued := by rw [← closing]; rfl
  have table := funext (recordAfterClose_eq shut queued (unsentOf s.former.table))
  have requeued := requeueUnsent_of_room (s := takenBelow k s) room.le
  have same : unsentOf (takenBelow k s).former.table = unsentOf s.former.table := rfl
  have last : (s.ply.queue ++ (unsentOf s.former.table).map pkgFrame).length < s.ply.room := by
    rw [List.length_append, List.length_map]
    exact room
  rw [closeRecord_eq, closing, requeued, same, ← table, queueReport_of_room last]
  simp only [mapOpen, Former.markReport, State.setFormer_former, State.setPly_former, List.map_map]
  rfl

/-! ## Without room: the records but for their reports, the cut list and the station -/

/-- The records of the table but for their reports, which a dropped PKG frame may set to UNSENT (R93). -/
def barely (r : PackageRecord) : PackageRecord := { r with report := none }
def bareRecords (s : State) : List PackageRecord := s.former.table.map barely

theorem bareRecords_setFormer {s : State} {f : Former} {g : PackageRecord → PackageRecord}
    (table : f.table = s.former.table.map g) (keeps : ∀ r, barely (g r) = barely r) :
    bareRecords (s.setFormer f) = bareRecords s := by
  simp [bareRecords, table, Function.comp_def, keeps]

theorem bareRecords_markReport (n : Nat) (x : ReportState) (s : State) :
    bareRecords (s.setFormer (s.former.markReport n x)) = bareRecords s :=
  bareRecords_setFormer rfl fun r => by split <;> rfl

theorem bareRecords_reportDrop (b : TxBody) (s : State) : bareRecords (reportDrop b s) = bareRecords s := by
  unfold reportDrop
  split
  · exact bareRecords_markReport _ _ _
  · rfl
  · rfl

@[simp] theorem bareRecords_enqueue (b : TxBody) (s : State) : bareRecords (enqueue b s) = bareRecords s := by
  unfold enqueue
  dsimp only
  (repeat' split)
  · rfl
  all_goals exact bareRecords_reportDrop _ _

theorem bareRecords_queueReport (s : State) (r : PackageRecord) :
    bareRecords (queueReport s r) = bareRecords s := by
  rw [queueReport, bareRecords_enqueue, bareRecords_markReport]

theorem bareRecords_closeRecord (k : Nat) (reason : CloseReason) (p : PackageRecord) (s : State) :
    bareRecords (closeRecord k reason p s) = (bareRecords s).map (fun r =>
      if r.state = .opened then barely (closingRecord k reason p s) else r) := by
  have shown (t : State) (same : bareRecords t = bareRecords s) :
      bareRecords (mapOpen (fun _ => closingRecord k reason p s) t) = (bareRecords s).map (fun r =>
        if r.state = .opened then barely (closingRecord k reason p s) else r) := by
    rw [← same, bareRecords, bareRecords, mapOpen, State.setFormer_former, List.map_map, List.map_map]
    refine List.map_congr_left fun r _ => ?_
    by_cases opened : r.state = .opened <;> simp [barely, opened]
  rw [closeRecord, bareRecords_queueReport]
  exact shown _ (foldl_keeps bareRecords _ bareRecords_queueReport _ _)

@[simp] theorem reportDrop_cuts (b : TxBody) (s : State) : (reportDrop b s).former.cuts = s.former.cuts := by
  unfold reportDrop; split <;> rfl
@[simp] theorem enqueue_cuts (b : TxBody) (s : State) : (enqueue b s).former.cuts = s.former.cuts := by
  unfold enqueue; dsimp only; (repeat' split) <;> simp

theorem closeRecord_stands (k : Nat) (reason : CloseReason) (p : PackageRecord) (s : State) :
    StationStands s.station (closeRecord k reason p s) := by
  have queued (t : State) (r : PackageRecord) (h : StationStands s.station t) :
      StationStands s.station (queueReport t r) :=
    enqueue_stands _ _ h
  have requeued : StationStands s.station (requeueUnsent (setCuts (s.former.cuts.filter (fun c => !c.isPackageEnd))
      (s.setMap { s.map with entries := entriesAfter k s.map.entries }))) :=
    foldl_keeps_of queued _ (.refl s)
  exact queued _ _ requeued

end Sys2Proof.Machine
end

section
/-!
PROOF. What END leaves of each block, and its request (R111, R157).
-/

namespace Sys2Proof.Machine

open Sys2Proof.Safety

/-! ## The close at END (R111) -/

/-- Where END closes the open package, but for the package's start. -/
def endReached (s : State) : Nat :=
  match s.former.cuts with
  | c :: _ => min s.pos c.position
  | [] => s.pos

theorem closeAtEnd_of_open {s : State} {p : PackageRecord} (opened : s.openPackage = some p) :
    closeAtEnd s = setCuts [] (closeRecord (max p.startPos (endReached s)) .endRun p s) := by
  rw [closeAtEnd, opened, max_comm]
  rfl

theorem closeAtEnd_of_none {s : State} (none : s.openPackage = none) : closeAtEnd s = s := by
  rw [closeAtEnd, none]

theorem openPackage_none_iff (s : State) : s.openPackage = none ↔ PackageState.opened ∉ recordStates s.former := by
  simp [State.openPackage, recordStates]

theorem closeAtEnd_openPackage (s : State) : (closeAtEnd s).openPackage = none := by
  cases opened : s.openPackage with
  | none => rw [closeAtEnd_of_none opened, opened]
  | some p =>
    have closed := congrArg Prod.snd (packageView_closeRecord (max p.startPos (endReached s)) .endRun p s)
    rw [closeAtEnd_of_open opened, openPackage_none_iff]
    change _ ∉ recordStates (closeRecord _ _ p s).former
    rw [show recordStates (closeRecord _ _ p s).former = _ from closed]
    simp only [List.mem_map, not_exists, not_and]
    intro x _
    split <;> simp_all

theorem closeAtEnd_stands (s : State) : StationStands s.station (closeAtEnd s) := by
  unfold closeAtEnd
  split
  · exact .refl s
  · exact closeRecord_stands _ _ _ s

/-! ## The blocks at END (R12, R125, R146, R157) -/

@[simp] theorem bareRecords_resumeOwn (before : List LocalCause) (s : State) :
    bareRecords (resumeOwn before s) = bareRecords s := by
  unfold resumeOwn; split <;> simp
@[simp] theorem resumeOwn_cuts (before : List LocalCause) (s : State) :
    (resumeOwn before s).former.cuts = s.former.cuts := by
  unfold resumeOwn; split <;> simp

@[simp] theorem endedBlocks_station (s : State) : (endedBlocks s).station = s.station := by
  unfold endedBlocks; dsimp only; split <;> rfl
@[simp] theorem endedBlocks_former (s : State) : (endedBlocks s).former = s.former := by
  unfold endedBlocks; dsimp only; split <;> rfl
@[simp] theorem endedBlocks_ply (s : State) : (endedBlocks s).ply = s.ply := by
  unfold endedBlocks; dsimp only; split <;> rfl
@[simp] theorem endedBlocks_start (s : State) : (endedBlocks s).start = s.start := by
  unfold endedBlocks; dsimp only; split <;> rfl
@[simp] theorem endedBlocks_arrivals (s : State) : (endedBlocks s).pace.arrivals = [] := by
  unfold endedBlocks; dsimp only; split <;> rfl
@[simp] theorem endedBlocks_banks (s : State) : (endedBlocks s).banks = s.banks.map Bank.atEnd := by
  unfold endedBlocks; dsimp only; split <;> simp

/-- Of the station, END leaves the reading of the pins and whether a restart pends (R157, R160, R165). -/
def Station.ended (x : Station) : Station :=
  { x with state := .idle, den := false, locals := [], peers := [], firstCause := none
           prevFirst := x.firstCause, alm := false }

theorem endRun_stands (s : State) : StationStands s.station.ended (endRun s) := by
  obtain ⟨before, closed⟩ := closeAtEnd_stands s
  have emptied : StationStands { s.station with locals := [], peers := [] } (emptiedSet (endedBlocks (closeAtEnd s))) :=
    ⟨before, by rw [emptiedSet, State.setStation_station, endedBlocks_station, closed]⟩
  have resumed : StationStands { s.station with locals := [], peers := [] }
      (resumeOwn (endedBlocks (closeAtEnd s)).station.locals (emptiedSet (endedBlocks (closeAtEnd s)))) := by
    unfold resumeOwn
    split
    · exact enqueue_stands _ _ emptied
    · exact emptied
  obtain ⟨gone, station⟩ := resumed
  refine ⟨gone, ?_⟩
  rw [endRun_eq, changeState_station, endedCauses, State.setStation_station, station]
  rfl

theorem bareRecords_endedCauses (s : State) : bareRecords (endedCauses s) = bareRecords s :=
  bareRecords_resumeOwn _ (emptiedSet s)
theorem endedCauses_cuts (s : State) : (endedCauses s).former.cuts = s.former.cuts :=
  resumeOwn_cuts _ (emptiedSet s)

theorem bareRecords_congr {s t : State} (former : t.former = s.former) : bareRecords t = bareRecords s := by
  rw [bareRecords, former, bareRecords]

theorem endRun_bareRecords (s : State) : bareRecords (endRun s) = bareRecords (closeAtEnd s) := by
  rw [endRun_eq, bareRecords_congr (changeState_former _ _), bareRecords_endedCauses]
  exact bareRecords_congr (endedBlocks_former _)

theorem endRun_cuts (s : State) : (endRun s).former.cuts = (closeAtEnd s).former.cuts := by
  rw [endRun_eq, changeState_former, endedCauses_cuts, endedBlocks_former]

theorem endRun_openPackage (s : State) : (endRun s).openPackage = none := by
  have closed := (openPackage_none_iff _).mp (closeAtEnd_openPackage s)
  have same := congrArg Prod.snd
    ((packageView_endedCauses _).trans (packageView_endedBlocks (closeAtEnd s)))
  rw [openPackage_none_iff, endRun_eq, changeState_former]
  rwa [show recordStates (endedCauses (endedBlocks (closeAtEnd s))).former = _ from same]

theorem endRun_arrivals (s : State) : (endRun s).pace.arrivals = [] := by
  have resumed (before : List LocalCause) (t : State) : (resumeOwn before t).pace = t.pace := by
    unfold resumeOwn; split <;> simp
  rw [endRun_eq, changeState_arrivals, endedCauses, State.setStation_pace, resumed, emptiedSet,
    State.setStation_pace, endedBlocks_arrivals]

theorem endRun_banks (s : State) : (endRun s).banks = s.banks.map Bank.atEnd := by
  have resumed (before : List LocalCause) (t : State) : (resumeOwn before t).banks = t.banks := by
    unfold resumeOwn; split <;> simp
  rw [endRun_eq, changeState_banks, endedCauses, State.setStation_banks, resumed, emptiedSet,
    State.setStation_banks, endedBlocks_banks, closeAtEnd_banks]

theorem endRun_twist (s : State) : (endRun s).twist = s.twist := by
  unfold endRun; dsimp only; split <;> simp
theorem endRun_knot (s : State) : (endRun s).knot = s.knot := by
  unfold endRun; dsimp only; split <;> simp

/-- The closed record stands in the table (R106, R111). -/
theorem endRun_closed {s : State} {p : PackageRecord} (opened : s.openPackage = some p) :
    ∃ r ∈ (endRun s).former.table, barely r =
      barely (closingRecord (max p.startPos (endReached s)) .endRun p s) := by
  have found : p ∈ s.former.table := List.mem_of_find?_eq_some opened
  have open_ : p.state = .opened := by simpa using List.find?_some opened
  have mem : barely (closingRecord (max p.startPos (endReached s)) .endRun p s) ∈ bareRecords (endRun s) := by
    rw [endRun_bareRecords, closeAtEnd_of_open opened]
    change _ ∈ bareRecords (closeRecord _ _ p s)
    rw [bareRecords_closeRecord]
    exact List.mem_map.mpr ⟨barely p, List.mem_map_of_mem found, if_pos open_⟩
  exact List.mem_map.mp mem

/-! ## The queue at END with room (R110, R157, R168) -/

theorem endRun_queue (s : State) : (endRun s).ply.queue =
    (resumeOwn s.station.locals (emptiedSet (endedBlocks (closeAtEnd s)))).ply.queue := by
  obtain ⟨_, closed⟩ := closeAtEnd_stands s
  rw [endRun_eq, changeState_queue, endedCauses, endedBlocks_station, closed]
  rfl

/-- The PKG frames END queues (R93, R110). -/
def endReports (s : State) : List QFrame :=
  match s.openPackage with
  | some p => (unsentOf s.former.table).map pkgFrame
      ++ [pkgFrame (closingRecord (max p.startPos (endReached s)) .endRun p s)]
  | none => []

theorem closeAtEnd_ply_of_room {s : State}
    (room : s.ply.queue.length + (unsentOf s.former.table).length < s.ply.room) :
    (closeAtEnd s).ply = { s.ply with queue := s.ply.queue ++ endReports s } := by
  cases opened : s.openPackage with
  | none => simp [closeAtEnd_of_none opened, endReports, opened]
  | some p =>
    rw [closeAtEnd_of_open opened, closeRecord_of_room _ _ p room, endReports, opened]
    simp [setCuts]

theorem endReports_length_le (s : State) : (endReports s).length ≤ (unsentOf s.former.table).length + 1 := by
  unfold endReports
  split <;> simp

theorem endRun_queue_of_room {s : State}
    (room : s.ply.queue.length + (unsentOf s.former.table).length + 1 < s.ply.room) :
    (endRun s).ply.queue = s.ply.queue ++ endReports s ++
      (if s.station.locals ≠ [] then [fresh (.resume s.own)] else []) := by
  have ply := closeAtEnd_ply_of_room (s := s) (by omega)
  have short := endReports_length_le s
  have start : (emptiedSet (endedBlocks (closeAtEnd s))).start = s.start :=
    (endedBlocks_start _).trans (calm_start.closeAtEnd s)
  have queued : (emptiedSet (endedBlocks (closeAtEnd s))).ply =
      { s.ply with queue := s.ply.queue ++ endReports s } := (endedBlocks_ply _).trans ply
  have left : (emptiedSet (endedBlocks (closeAtEnd s))).ply.queue.length <
      (emptiedSet (endedBlocks (closeAtEnd s))).ply.room := by
    rw [queued, List.length_append]
    change _ < s.ply.room
    omega
  rw [endRun_queue, resumeOwn]
  by_cases none : s.station.locals = []
  · simp [none, queued]
  · rw [if_pos (by simp [none, emptiedSet]), if_pos none, enqueue_of_room _ left, State.own, start, ← State.own,
      State.setPly_ply, queued]

/-! ## The request (R157, R191) -/

theorem exec_askEnd_of_asked {h : AskHead} {s : State} (ask : asked h s) (service : serving s) :
    exec (.askEnd ⟨h, []⟩) s =
      .next (queueAnswer h.sender.toNat ((doEnd [] (holdPlace true (heard s))).2.payload h.tag 13)
        (doEnd [] (holdPlace true (heard s))).2.restart (doEnd [] (holdPlace true (heard s))).1) := by
  have short : ([] : List Byte).length ≤ 22 := by simp
  have received : exec (.askEnd ⟨h, []⟩) s = .next (receiveAsk 13 ⟨h, []⟩ s) := rfl
  rw [received, receiveAsk_of_asked ask 13 short]
  dsimp only
  rw [performAsk_of_serving (s := holdPlace true (heard s)) service]
  rfl

theorem doEnd_of_standing {s : State} (stands : s.station.state = .ready ∨ s.station.state = .stopped) :
    doEnd [] s = (endRun s, .done 0 []) := if_pos stands

theorem doEnd_elsewhere {s : State} (ready : s.station.state ≠ .ready) (stopped : s.station.state ≠ .stopped) :
    doEnd [] s = refuse .state s := if_neg fun stands => stands.elim ready stopped

/-- Settles O48: END is `endRun` with a place held for its ANSWER. -/
theorem endRequestEndsTheRun : Obligations.EndRequestEndsTheRun := by
  intro s h ask service
  refine ⟨fun ready stopped => ?_, fun stands => ⟨_, exec_askEnd_of_asked ask service, ?_⟩⟩
  · rw [exec_askEnd_of_asked ask service, doEnd_elsewhere (s := holdPlace true (heard s)) ready stopped, payload_eq]
    rfl
  · rw [doEnd_of_standing (s := holdPlace true (heard s)) stands, payload_eq]
    obtain ⟨gone, station⟩ := endRun_stands (holdPlace true (heard s))
    have ended : (endRun (holdPlace true (heard s))).station =
      { (holdPlace true (heard s)).station.ended with answerGone := gone } := station
    refine ⟨congrArg (·.state) ended, congrArg (·.den) ended, congrArg (·.alm) ended, congrArg (·.locals) ended,
      congrArg (·.peers) ended, congrArg (·.firstCause) ended, congrArg (·.prevFirst) ended,
      endRun_banks (holdPlace true (heard s)), endRun_arrivals _, fun opened => ?cuts, endRun_openPackage _,
      fun p opened => ?closed, endRun_acc _, endRun_twist _, endRun_knot _, List.getLast?_concat, fun room => ?queue⟩
    case cuts =>
      obtain ⟨p, opened⟩ := Option.isSome_iff_exists.mp opened
      exact (endRun_cuts _).trans (by rw [closeAtEnd_of_open (s := holdPlace true (heard s)) opened]; rfl)
    case closed =>
      obtain ⟨r, mem, same⟩ := endRun_closed (s := holdPlace true (heard s)) opened
      refine ⟨r, mem, congrArg (·.number) same, congrArg (·.reason) same, congrArg (·.state) same, ?_⟩
      exact congrArg (·.endPos) same
    case queue =>
      have left : (holdPlace true (heard s)).ply.queue.length + (unsentOf s.former.table).length + 1 <
          (holdPlace true (heard s)).ply.room := by
        change s.ply.queue.length + _ + 1 < 7
        omega
      have queue := endRun_queue_of_room (s := holdPlace true (heard s)) left
      exact congrArg (· ++ [answerTo h 13 0 0 []]) queue

end Sys2Proof.Machine
end

section
/-!
PROOF. What a close takes below its position, and the grade it gives (R106, R107, R109).
-/

namespace Sys2Proof.Machine

open Sys2Proof.Safety

/-! ## The defects list (R107) -/

/-- An item that a MAJOR one may replace in a full list: MINOR, or a CHANGE (log entry 50). -/
def DefectItem.light (d : DefectItem) : Bool := d.severity == .minor || d.kind == .change

/-- A defects list of 8 once an item is offered to it. -/
def keepItem (kept : List DefectItem) (d : DefectItem) : List DefectItem :=
  if kept.length < 8 then kept ++ [d]
  else if d.light then kept
  else match kept.findIdx? DefectItem.light with
    | some i => kept.set i d
    | none => kept

theorem keptItems_eq (items : List DefectItem) : keptItems items = items.foldl keepItem [] := rfl

theorem keptItems_concat (items : List DefectItem) (d : DefectItem) :
    keptItems (items ++ [d]) = keepItem (keptItems items) d := by
  rw [keptItems_eq, List.foldl_append]
  rfl

theorem keepItem_length (kept : List DefectItem) (d : DefectItem) :
    (keepItem kept d).length = if kept.length < 8 then kept.length + 1 else kept.length := by
  unfold keepItem
  split
  · simp
  · split
    · rfl
    · split <;> simp

theorem keptItems_length (items : List DefectItem) : (keptItems items).length = min 8 items.length := by
  induction items using List.reverseRecOn with
  | nil => rfl
  | append_singleton items d ih =>
    rw [keptItems_concat, keepItem_length, ih, List.length_append, List.length_singleton]
    split <;> omega

theorem replaceMinor_eq (d : DefectItem) (l : List DefectItem) :
    replaceMinor d l = (l.findIdx? DefectItem.light).map (fun i => l.set i d) := by
  induction l with
  | nil => rfl
  | cons x xs ih =>
    rw [replaceMinor, List.findIdx?_cons]
    change (if x.light = true then _ else _) = _
    split
    · rfl
    · rw [ih]
      cases xs.findIdx? DefectItem.light <;> rfl

theorem DefectItem.light_eq (d : DefectItem) :
    d.light = !(d.severity == .major && d.kind != .change) := by
  rcases d with ⟨_, kind, _, severity, _⟩
  cases severity <;> simp [DefectItem.light, bne]

namespace Taking

variable (d : DefectItem) (t : Taking)

theorem item_defects : (t.item d).defects = keepItem t.defects d := by
  unfold Taking.item keepItem
  rw [DefectItem.light_eq, Config.defectCapacity]
  dsimp only
  split
  · rfl
  · cases (d.severity == Severity.major && d.kind != EntryKind.change) with
    | false => rfl
    | true =>
      simp only [if_true, replaceMinor_eq, Bool.not_true, Bool.false_eq_true, if_false]
      cases t.defects.findIdx? DefectItem.light <;> rfl

theorem item_dropped : (t.item d).dropped = if t.defects.length < 8 then t.dropped else min 255 (t.dropped + 1) := by
  unfold Taking.item
  dsimp only
  (repeat' split) <;> simp_all [Config.defectCapacity] <;> rfl

theorem item_majors : (t.item d).majors =
    t.majors + (if d.severity == .major && d.kind != .change then 1 else 0) := by
  unfold Taking.item
  dsimp only
  (repeat' split) <;> simp_all

theorem item_minors : (t.item d).minors =
    t.minors + (if d.severity == .minor && d.kind != .change then 1 else 0) := by
  have light : (!(d.severity == .major && d.kind != .change) && d.kind != .change) =
      (d.severity == .minor && d.kind != .change) := by
    rcases d with ⟨_, kind, _, severity, _⟩
    cases severity <;> cases kind <;> rfl
  unfold Taking.item
  dsimp only
  rw [light]
  (repeat' split) <;> simp_all

theorem item_joins : (t.item d).joinCount = t.joinCount ∧ (t.item d).joins = t.joins := by
  unfold Taking.item
  dsimp only
  (repeat' split) <;> exact ⟨rfl, rfl⟩

end Taking

/-! ## What a close has taken (R106, R107) -/

/-- A JOIN that ends at or below the close: the others are items (log entry 51). -/
def joinBelow (k : Nat) (e : MapEntry) : Bool := e.kind == .join && decide (e.position + e.extent ≤ k)

/-- The entries a close takes as items. -/
def itemsBelow (k : Nat) (l : List MapEntry) : List MapEntry := l.filter (fun e => !joinBelow k e)

/-- `t` is what a close at `k` of a package that starts at `start` takes of the entries `l`. -/
structure Took (start k : Nat) (l : List MapEntry) (t : Taking) : Prop where
  joinCount : t.joinCount = min 255 (l.countP (joinBelow k))
  joins : t.joins = ((l.filter (joinBelow k)).map (fun e => e.position - start)).take 4
  defects : t.defects = keptItems (itemsAt start k (itemsBelow k l))
  dropped : t.dropped = min 255 ((itemsBelow k l).length - 8)
  majors : t.majors = (itemsBelow k l).countP (fun e => e.severity == .major && e.kind != .change)
  minors : t.minors = (itemsBelow k l).countP (fun e => e.severity == .minor && e.kind != .change)

theorem itemsAt_length (start k : Nat) (l : List MapEntry) : (itemsAt start k l).length = l.length := by
  simp [itemsAt]

theorem take_concat {α : Type} (n : Nat) (l : List α) (x : α) :
    (l ++ [x]).take n = if (l.take n).length < n then l.take n ++ [x] else l.take n := by
  rw [List.take_append, List.length_take]
  by_cases short : l.length < n
  · obtain ⟨m, rfl⟩ := Nat.exists_eq_add_of_lt short
    rw [if_pos (by omega)]
    simp [show l.length + m + 1 - l.length = m + 1 by omega]
  · rw [if_neg (by omega), Nat.sub_eq_zero_of_le (Nat.not_lt.mp short)]
    simp

namespace Took

variable {start k : Nat} {l : List MapEntry} {t : Taking} (h : Took start k l t) {e : MapEntry}
include h

theorem join (joins : joinBelow k e = true) : Took start k (l ++ [e]) (t.join (e.position - start)) := by
  have items : itemsBelow k (l ++ [e]) = itemsBelow k l := by simp [itemsBelow, joins]
  refine ⟨?_, ?_, items ▸ h.defects, items ▸ h.dropped, items ▸ h.majors, items ▸ h.minors⟩
  · have count : (l ++ [e]).countP (joinBelow k) = l.countP (joinBelow k) + 1 := by simp [joins]
    have taken : (t.join (e.position - start)).joinCount = min 255 (t.joinCount + 1) := rfl
    rw [taken, h.joinCount, count]
    omega
  · have taken : (t.join (e.position - start)).joins =
        if t.joins.length < 4 then t.joins ++ [e.position - start] else t.joins := rfl
    have added : (l ++ [e]).filter (joinBelow k) = l.filter (joinBelow k) ++ [e] := by simp [joins]
    rw [taken, h.joins, added, List.map_append, List.map_singleton, take_concat]

theorem item (items : joinBelow k e = false) : Took start k (l ++ [e]) (t.item {
    offset := max e.position start - start, kind := e.kind
    extent := min (e.position + e.extent) k - max e.position start, severity := e.severity, origin := e.origin }) := by
  have added : itemsBelow k (l ++ [e]) = itemsBelow k l ++ [e] := by simp [itemsBelow, items]
  have joins : (l ++ [e]).filter (joinBelow k) = l.filter (joinBelow k) := by simp [items]
  have count : (l ++ [e]).countP (joinBelow k) = l.countP (joinBelow k) := by simp [items]
  have kept : t.defects.length = min 8 (itemsBelow k l).length := by
    rw [h.defects, keptItems_length, itemsAt_length]
  obtain ⟨sameCount, sameJoins⟩ := Taking.item_joins {
    offset := max e.position start - start, kind := e.kind
    extent := min (e.position + e.extent) k - max e.position start, severity := e.severity, origin := e.origin } t
  refine ⟨?_, ?_, ?_, ?_, ?_, ?_⟩
  · rw [sameCount, count, h.joinCount]
  · rw [sameJoins, joins, h.joins]
  · rw [Taking.item_defects, h.defects, added, itemsAt, itemsAt, List.map_append, List.map_singleton,
      keptItems_concat]
  · rw [Taking.item_dropped, kept, h.dropped, added, List.length_append, List.length_singleton]
    split <;> omega
  · rw [Taking.item_majors, h.majors, added, List.countP_append, List.countP_singleton]
  · rw [Taking.item_minors, h.minors, added, List.countP_append, List.countP_singleton]

theorem entry (e : MapEntry) : Took start k (l ++ [e]) (t.entry start k e) := by
  have joins_iff : joinBelow k e = true ↔ e.kind = .join ∧ e.endPos ≤ k := by
    simp [joinBelow, MapEntry.endPos]
  unfold Taking.entry
  by_cases joins : e.kind = .join ∧ e.endPos ≤ k
  · rw [if_pos joins]
    exact h.join (joins_iff.mpr joins)
  · rw [if_neg joins]
    exact h.item (by simpa using fun taken => joins (joins_iff.mp taken))

end Took

theorem took_foldl (start k : Nat) (l : List MapEntry) :
    Took start k l (l.foldl (Taking.entry start k) Taking.nothing) := by
  induction l using List.reverseRecOn with
  | nil => exact ⟨rfl, rfl, rfl, rfl, rfl, rfl⟩
  | append_singleton l e ih =>
    rw [List.foldl_append]
    exact ih.entry e

/-- The grade of R109 by what was taken. -/
theorem Took.gradeOf {start k : Nat} {l : List MapEntry} {t : Taking} (h : Took start k l t) (page : PackagePage)
    (type : PackageType) (length : Nat) :
    gradeOf page type t length = if type = .scrap then .scrap
      else if (itemsBelow k l).any (fun e => e.severity == .major && e.kind != .change) = true
        ∨ page.minorAllowance < (itemsBelow k l).countP (fun e => e.severity == .minor && e.kind != .change)
        ∨ page.maxJoins < min 255 (l.countP (joinBelow k)) ∨ length < page.target * page.minimum / 1000
      then .second else .first := by
  cases type with
  | scrap => rfl
  | normal =>
    rw [if_neg (by decide)]
    change (if 0 < t.majors ∨ page.minorAllowance < t.minors ∨ page.maxJoins < t.joinCount
      ∨ length < page.minLength then Grade.second else .first) = _
    refine if_congr (or_congr ?_ ?_) rfl rfl
    · rw [h.majors, List.countP_pos_iff, List.any_eq_true]
    · rw [h.minors, h.joinCount]
      rfl

end Sys2Proof.Machine
end

section
/-!
PROOF. The cut list and the package former at a pulse: cuts placed, made firm and fired, and the plan
(R94 to R98).
-/

namespace Sys2Proof.Machine

open Sys2Proof.Safety

/-! ## The order of the cut list (R94) -/

theorem insertCut_eq_cutMoved (c : Cut) (l : List Cut) : insertCut c l = cutMoved c l := by
  have before (x : Cut) : c.before x =
      decide (x.position < c.position ∨ (x.position = c.position ∧ x.placed ≤ c.placed)) := by
    rw [Cut.before, Bool.decide_or, Bool.decide_and, beq_eq_decide]
  rw [cutMoved]
  induction l with
  | nil => rfl
  | cons x xs ih =>
    rw [insertCut, before, ih]
    split <;> simp_all

theorem nextPlacement_eq (l : List Cut) : nextPlacement l = (l.map (fun x => x.placed + 1)).foldl max 0 := by
  rw [List.foldl_map]; rfl

theorem span_congr {α : Type} {p q : α → Bool} {l : List α} (same : ∀ x ∈ l, p x = q x) :
    l.takeWhile p = l.takeWhile q ∧ l.dropWhile p = l.dropWhile q := by
  induction l with
  | nil => exact ⟨rfl, rfl⟩
  | cons x xs ih =>
    obtain ⟨first, rest⟩ := List.forall_mem_cons.mp same
    obtain ⟨taken, dropped⟩ := ih rest
    rw [List.takeWhile_cons, List.takeWhile_cons, List.dropWhile_cons, List.dropWhile_cons, first, taken, dropped]
    exact ⟨rfl, rfl⟩

/-- A cut placed now stands after those of equal position (R94). -/
theorem insertCut_placed (c : Cut) (l : List Cut) :
    insertCut { c with placed := nextPlacement l } l = cutPlaced c l := by
  have level : ∀ x ∈ l,
      decide (x.position < c.position ∨ (x.position = c.position ∧ x.placed ≤ nextPlacement l)) =
        decide (x.position ≤ c.position) := fun x mem => by
    have := nextPlacement_above l x mem
    exact decide_eq_decide.mpr (by omega)
  rw [insertCut_eq_cutMoved, cutMoved, cutPlaced, ← nextPlacement_eq]
  dsimp only
  rw [(span_congr level).1, (span_congr level).2]

/-! ## What fires and what does not (R94, R103) -/

theorem ahead_iff (s : State) (c : Cut) :
    ahead s c ↔ (!c.waiting && c.due s.cfg.cutterOffset s.pos) = false := by
  cases waiting : c.waiting <;> simp [ahead, waiting, Cut.due]

theorem not_ahead_iff (s : State) (c : Cut) :
    ¬ ahead s c ↔ (!c.waiting && c.due s.cfg.cutterOffset s.pos) = true := by
  rw [ahead_iff, Bool.not_eq_false]

theorem xNow_of_open {s : State} {p : PackageRecord} (opened : s.openPackage = some p) :
    xNow s = min (s.packagePage p.bank).margin s.cfg.cutterOffset := by
  rw [xNow, opened]; rfl

/-! ## A placement (R94, R95, R104) -/

theorem placeCut_of_ahead {s : State} {c : Cut} (lies : ahead s c) (f : Fire) (extra : Nat) :
    placeCut f c extra s = if s.former.cuts.length < 6
      then setCuts (cutPlaced (firmed (xNow s) s.pos c) s.former.cuts) s else refuseCut s := by
  rw [placeCut, (ahead_iff s c).mp lies, if_neg Bool.false_ne_true, ← insertCut_placed]
  rfl

theorem placeCut_of_due {s : State} {c : Cut} (due : ¬ ahead s c) (f : Fire) (extra : Nat) :
    placeCut f c extra s = f c (s.pos - s.cfg.cutterOffset) extra s := by
  rw [placeCut, if_pos ((not_ahead_iff s c).mp due)]

/-! ## The plan (R97, R98) -/

/-- The condition of R97 as the former tests it. -/
theorem planDue_iff (s : State) (type : PackageType) (start : Nat) (page : PackagePage) (cuts : List Cut) :
    planDue s type start page cuts ↔
      type = .normal ∧ start + page.target ≤ s.pos + page.planAhead s.cfg.cutterOffset
        ∧ cuts.all (fun c => c.purpose == .scrapEnd) ∧ cuts.length < Config.cutCapacity := by
  simp [planDue, PackagePage.planAhead, PackagePage.x, Config.cutCapacity]

theorem planIfDue_of_open {s : State} {p : PackageRecord} (opened : s.openPackage = some p)
    (early : ¬ planDue s p.type p.startPos (s.packagePage p.bank) s.former.cuts) (f : Fire) : planIfDue f s = s := by
  rw [planIfDue, opened]
  exact if_neg ((planDue_iff _ _ _ _ _).not.mp early)

theorem planIfDue_of_done {s : State} (early : ∀ p, s.openPackage = some p →
      ¬ planDue s p.type p.startPos (s.packagePage p.bank) s.former.cuts) (f : Fire) : planIfDue f s = s := by
  cases opened : s.openPackage with
  | none => rw [planIfDue, opened]
  | some p => exact planIfDue_of_open opened (early p opened) f

/-- No blocker meets the window of a free position (R89). -/
theorem blockersAt_of_free {x y : Nat} {entries : List MapEntry} (free : freeAt x entries y) :
    blockersAt y x entries = [] := by
  refine List.filter_eq_nil_iff.mpr fun e mem both => ?_
  simp only [Bool.and_eq_true, MapEntry.meets, decide_eq_true_eq, MapEntry.endPos] at both
  obtain ⟨blocks, low, high⟩ := both
  have := free e mem blocks
  have above := of_decide_eq_true high
  omega

/-- A plan that is due with no blocker in its window is placed at start + target (R97, R98). -/
theorem planIfDue_of_free {s : State} {p : PackageRecord} (opened : s.openPackage = some p)
    (due : planDue s p.type p.startPos (s.packagePage p.bank) s.former.cuts)
    (free : freeAt (xNow s) s.map.entries ((p.startPos + (s.packagePage p.bank).target : Nat) : Int)) (f : Fire) :
    planIfDue f s = placeCut f (planCut (p.startPos + (s.packagePage p.bank).target)) 0 s := by
  have clear := blockersAt_of_free free
  have resolved : resolvePlan (s.packagePage p.bank) p.startPos s.cfg.cutterOffset s.pos s.map.entries =
      .at_ (p.startPos + (s.packagePage p.bank).target) := by
    rw [xNow_of_open opened, Nat.cast_add] at clear
    rw [resolvePlan, PackagePage.x]
    simp only [clear]
  rw [planIfDue, opened]
  dsimp only
  rw [if_pos ((planDue_iff _ _ _ _ _).mp due), resolved]

/-! ## The former at a pulse (R95, R96) -/

theorem fireDue_of_ahead {s : State} (lie : ∀ c ∈ s.former.cuts, ahead s c) (n : Nat) : fireDue n s = s := by
  cases n with
  | zero => rfl
  | succ n =>
    rw [fireDue, takeFirst_none.mpr fun c mem => (ahead_iff s c).mp (lie c mem)]

/-- The first cut at its fire point fires, and the pulse goes on (R96). -/
theorem fireDue_of_due {s : State} {pre post : List Cut} {c : Cut} (cuts : s.former.cuts = pre ++ c :: post)
    (lie : ∀ q ∈ pre, ahead s q) (due : ¬ ahead s c) (n : Nat) :
    fireDue (n + 1) s = fireDue n (fire c c.position 0 (setCuts (pre ++ post) s)) := by
  rw [fireDue, cuts, takeFirst_at (fun q mem => (ahead_iff s q).mp (lie q mem)) ((not_ahead_iff s c).mp due)]

theorem formerPulse_of_forming {s : State} (forming : s.cfg.forming = true) :
    formerPulse s = planIfDue fire (fireDue s.former.cuts.length (firmCuts s)) := by
  rw [formerPulse, State.forming, if_pos forming]

theorem formerPulse_of_ahead {s : State} (forming : s.cfg.forming = true) (lie : ∀ c ∈ s.former.cuts, ahead s c) :
    formerPulse s = planIfDue fire (firmCuts s) := by
  rw [formerPulse_of_forming forming, fireDue_of_ahead]
  intro c mem
  obtain ⟨q, old, rfl⟩ := List.mem_map.mp mem
  exact lie q old

/-- The plan condition does not see whether a cut is firm. -/
theorem planDue_firmed (s : State) (type : PackageType) (start : Nat) (page : PackagePage) (cuts : List Cut)
    (x pos : Nat) : planDue s type start page (cuts.map (firmed x pos)) ↔ planDue s type start page cuts := by
  simp [planDue, firmed]

/-- A pulse that brings one cut to its fire point (R96). -/
theorem formerPulse_of_one {s : State} {pre post : List Cut} {c : Cut} (forming : s.cfg.forming = true)
    (firm : s.former.cuts.map (firmed (xNow s) s.pos) = pre ++ c :: post) (lie : ∀ q ∈ pre, ahead s q)
    (due : ¬ ahead s c) : formerPulse s =
      planIfDue fire (fireDue (pre ++ post).length (fire c c.position 0 (setCuts (pre ++ post) s))) := by
  have length : s.former.cuts.length = (pre ++ post).length + 1 := by
    rw [← List.length_map (firmed (xNow s) s.pos), firm]
    simp
    omega
  rw [formerPulse_of_forming forming, length, fireDue_of_due (s := firmCuts s) firm lie due]
  rfl

theorem formerPulse_of_done {s : State} (done : formerDone s) (n : Nat) : planIfDue fire (fireDue n s) = s := by
  obtain ⟨lie, early⟩ := done
  rw [fireDue_of_ahead lie, planIfDue_of_done early]

/-! ## The whole pulse of a forming PLAIN station (R3, R15) -/

theorem testMark_of_forming {s : State} (forming : s.cfg.forming = true) :
    testMark s = match s.openPackage with
      | some q => s.setMarks (marksAt (s.pos - s.cfg.cutterOffset - q.startPos) s.marks)
      | none => s := by
  rw [testMark, countedLength, State.forming, if_pos forming]
  cases s.openPackage with
  | none => rfl
  | some q => exact testMarkAt_eq _ s

theorem activePulse_of_forming {s : State} (kind : s.cfg.kind = .plain) (forming : s.cfg.forming = true)
    (unchecked : s.cfg.stepB = 0) (none : s.pace.arrivals = []) (run : s.inRun = true) (within : withinRunLimit s) :
    activePulse s = testMark (formerPulse (movedByPulse s)) := by
  have cfg : (movedByPulse s).cfg = s.cfg := cfg_congr (movedByPulse_start s)
  have kept : retain s.pos (movedByPulse s) = movedByPulse s := by
    rw [retain, State.forming, cfg, forming]
    rfl
  have untwisted (ran : Bool) : twistPulse s.activeStep ran (movedByPulse s) = movedByPulse s := by
    simp [twistPulse, State.isLaying, cfg, kind]
  have before : beforeArrivals s = testMark (formerPulse (movedByPulse s)) := by
    rw [beforeArrivals, advance_dwellPulse, if_pos within, kept, untwisted]
  have still : (testMark (formerPulse (movedByPulse s))).pace.arrivals = [] := by
    rw [← before, beforeArrivals_arrivals, none]
  have start : (testMark (formerPulse (movedByPulse s))).start = s.start := by
    rw [← before]
    exact calm_start.beforeArrivals (fun _ _ => rfl) s
  rw [activePulse_of_inRun run, before, arrivalsPulse_of_none still,
    slipPulse_of_no_check (by rw [cfg_congr start, unchecked])]

end Sys2Proof.Machine
end

section
/-!
PROOF. Cut-outs, the events of the run map at the former, and a fire at or below the open package's start
(R96, R98, R101 to R104).
-/

namespace Sys2Proof.Machine

open Sys2Proof.Safety

/-! ## The cut found in the list -/

theorem findIdx?_at {α : Type} {p : α → Bool} {pre post : List α} {y : α} (before : ∀ x ∈ pre, p x = false)
    (holds : p y = true) : (pre ++ y :: post).findIdx? p = some pre.length := by
  induction pre with
  | nil => simp [List.findIdx?_cons, holds]
  | cons x xs ih =>
    obtain ⟨first, rest⟩ := List.forall_mem_cons.mp before
    rw [List.cons_append, List.findIdx?_cons, first, if_neg Bool.false_ne_true, ih rest]
    rfl

theorem lastIdx_at {α : Type} {p : α → Bool} {pre post : List α} {y : α} (holds : p y = true)
    (after : ∀ x ∈ post, p x = false) : lastIdx p (pre ++ y :: post) = some pre.length := by
  have turned : (pre ++ y :: post).reverse = post.reverse ++ y :: pre.reverse := by simp
  rw [lastIdx, turned, findIdx?_at (fun x mem => after x (List.mem_reverse.mp mem)) holds, Option.map_some]
  simp only [List.length_append, List.length_cons, List.length_reverse, Option.some.injEq]
  omega

theorem lastIdx_of_none {α : Type} {p : α → Bool} {l : List α} (none : ∀ x ∈ l, p x = false) :
    lastIdx p l = Option.none := by
  rw [lastIdx, List.findIdx?_eq_none_iff.mpr fun x mem => none x (List.mem_reverse.mp mem)]
  rfl

/-! ## Which case of R104 a cut-out falls under -/

/-- A cut-out with C1 at `c1` merges with the SCRAP_END `c`. -/
abbrev MergesWith (c1 : Int) (x : Nat) (c : Cut) : Prop :=
  c.purpose = .scrapEnd ∧ ((c.pairStart.getD 0 : Nat) : Int) ≤ c1 ∧ c1 ≤ (c.position + 2 * x : Nat)

/-- A cut-out with C1 at `c1` discards the PACKAGE_END `c`. -/
def discardedBy (c1 : Int) (start : Nat) (c : Cut) : Bool :=
  c.purpose == .packageEnd && (decide (c1 ≤ start) || decide (c1 < c.position))

/-- The cuts a cut-out with C1 at `c1` places find room. -/
abbrev RoomFor (c1 : Int) (start : Nat) (cuts : List Cut) : Prop :=
  cuts.length + (if (start : Int) < c1 then 2 else 1) ≤ 6 + cuts.countP (discardedBy c1 start)

theorem mergesWith_iff (c1 : Int) (x : Nat) (c : Cut) :
    (c.purpose == .scrapEnd && decide (((c.pairStart.getD 0 : Nat) : Int) ≤ c1)
      && decide (c1 ≤ (c.position : Int) + 2 * x)) = true ↔ MergesWith c1 x c := by
  simp only [Bool.and_eq_true, decide_eq_true_eq, beq_iff_eq, and_assoc, MergesWith]
  push_cast
  rfl

theorem not_mergesWith_iff (c1 : Int) (x : Nat) (c : Cut) :
    (c.purpose == .scrapEnd && decide (((c.pairStart.getD 0 : Nat) : Int) ≤ c1)
      && decide (c1 ≤ (c.position : Int) + 2 * x)) = false ↔ ¬ MergesWith c1 x c := by
  rw [← mergesWith_iff, Bool.not_eq_true]

theorem cutOutCase_of_merge {c1 : Int} {start x : Nat} {pre post : List Cut} {c : Cut}
    (before : ∀ q ∈ pre, ¬ MergesWith c1 x q) (merges : MergesWith c1 x c) :
    cutOutCase c1 start x (pre ++ c :: post) = .merge pre.length := by
  rw [cutOutCase, findIdx?_at (fun q mem => (not_mergesWith_iff c1 x q).mpr (before q mem))
    ((mergesWith_iff c1 x c).mpr merges)]

theorem cutOutCase_of_apart {c1 : Int} {start x : Nat} {cuts : List Cut} (short : cuts.length ≤ 6)
    (apart : ∀ q ∈ cuts, ¬ MergesWith c1 x q) :
    cutOutCase c1 start x cuts = if RoomFor c1 start cuts then .place
      else match lastIdx (fun c => c.purpose == .scrapEnd) cuts with
        | some i => .extend i
        | none => .refuse := by
  have discarded : (fun c : Cut => c.isPackageEnd && (!decide (c1 > start) || decide ((c.position : Int) > c1))) =
      discardedBy c1 start := by
    funext c
    simp only [discardedBy, Cut.isPackageEnd, gt_iff_lt, ← decide_not, not_lt]
  have absent := List.findIdx?_eq_none_iff.mpr fun q mem => (not_mergesWith_iff c1 x q).mpr (apart q mem)
  rw [cutOutCase, absent]
  dsimp only
  rw [discarded]
  refine if_congr ?_ rfl rfl
  simp only [RoomFor, gt_iff_lt, decide_eq_true_eq, Config.cutCapacity]
  split <;> omega

/-! ## A cut-out (R101 to R104) -/

theorem stillOpen_eq (e : MapEntry) (s : State) :
    stillOpen e s = (e.isOpen && s.map.entries.any (fun m => m.isOpen && m.kind == e.kind)) := by
  rw [stillOpen, openEntry_isSome]

/-- The SCRAP_END moved by a cut-out (R104). -/
theorem extendCut_at {s : State} {pre post : List Cut} {c : Cut} (cuts : s.former.cuts = pre ++ c :: post) (c2 : Nat)
    (wait : Bool) : extendCut pre.length c2 wait s = setCuts (cutMoved (firmed (xNow s) s.pos
      { raisedTo c2 c with waiting := c.waiting || wait }) (pre ++ post)) s := by
  rw [extendCut, cuts, reviseCut_at, insertCut_eq_cutMoved]
  rfl

theorem mapOpen_openPackage {g : PackageRecord → PackageRecord} (keeps : ∀ r, (g r).state = r.state) (s : State) :
    (mapOpen g s).openPackage = s.openPackage.map g := by
  have same : ((fun r : PackageRecord => r.state == .opened) ∘ fun r => if r.state = .opened then g r else r) =
      fun r => r.state == .opened := by
    funext r
    simp only [Function.comp]
    split <;> simp [keeps]
  rw [State.openPackage, mapOpen, State.setFormer_former, List.find?_map, same, State.openPackage]
  cases found : s.former.table.find? (fun r => r.state == .opened) with
  | none => rfl
  | some r =>
    have opened : r.state = .opened := by simpa using List.find?_some found
    simp [opened]

theorem xNow_retyped (type : PackageType) (s : State) : xNow (mapOpen (fun r => { r with type }) s) = xNow s := by
  have retyped := mapOpen_openPackage (g := fun r => { r with type }) (fun _ => rfl) s
  rw [xNow, retyped, xNow]
  cases s.openPackage <;> rfl

theorem length_filter_not_add_countP {α : Type} (p : α → Bool) (l : List α) :
    (l.filter (fun x => !p x)).length + l.countP p = l.length := by
  rw [← List.countP_eq_length_filter, add_comm]
  simpa using (List.length_eq_countP_add_countP p (l := l)).symm

/-- The case of R104 a cut-out of `e` falls under. -/
def caseOf (e : MapEntry) (p : PackageRecord) (s : State) : CutOutCase :=
  cutOutCase ((e.position : Int) - xNow s) p.startPos (xNow s) s.former.cuts

section CutOut

variable {s : State} {p : PackageRecord} (opened : s.openPackage = some p) (f : Fire) (e : MapEntry) (dropPlan : Bool)
include opened

theorem cutOut_of_moved {i : Nat} (moves : caseOf e p s = .merge i ∨ caseOf e p s = .extend i) :
    cutOut f e dropPlan s = (extendCut i (e.position + e.extent + xNow s) (stillOpen e s) s, false) := by
  rw [caseOf] at moves
  rw [cutOut, opened]
  dsimp only
  obtain merges | extends_ := moves
  · rw [merges]; rfl
  · rw [extends_]; rfl

theorem cutOut_of_refuse (refuses : caseOf e p s = .refuse) : cutOut f e dropPlan s = (refuseCut s, false) := by
  rw [caseOf] at refuses
  rw [cutOut, opened]
  dsimp only
  rw [refuses]

/-- A merge moves the first SCRAP_END that fits (R104; log entry 25). -/
theorem cutOut_of_merge {pre post : List Cut} {c : Cut} (cuts : s.former.cuts = pre ++ c :: post)
    (before : ∀ q ∈ pre, ¬ MergesWith ((e.position : Int) - xNow s) (xNow s) q)
    (merges : MergesWith ((e.position : Int) - xNow s) (xNow s) c) :
    cutOut f e dropPlan s = (setCuts (cutMoved (firmed (xNow s) s.pos
      { raisedTo (e.position + e.extent + xNow s) c with waiting := c.waiting || stillOpen e s })
      (pre ++ post)) s, false) := by
  have moves : caseOf e p s = .merge pre.length := by rw [caseOf, cuts, cutOutCase_of_merge before merges]
  rw [cutOut_of_moved opened f e dropPlan (.inl moves), extendCut_at cuts]

section Apart

variable (short : s.former.cuts.length ≤ 6)
  (apart : ∀ q ∈ s.former.cuts, ¬ MergesWith ((e.position : Int) - xNow s) (xNow s) q)
include short apart

/-- Without room the last SCRAP_END is extended (R104; log entry 25). -/
theorem cutOut_of_extend {pre post : List Cut} {c : Cut} (cuts : s.former.cuts = pre ++ c :: post)
    (full : ¬ RoomFor ((e.position : Int) - xNow s) p.startPos s.former.cuts) (end_ : c.purpose = .scrapEnd)
    (last : ∀ q ∈ post, q.purpose ≠ .scrapEnd) :
    cutOut f e dropPlan s = (setCuts (cutMoved (firmed (xNow s) s.pos
      { raisedTo (e.position + e.extent + xNow s) c with waiting := c.waiting || stillOpen e s })
      (pre ++ post)) s, false) := by
  have found : lastIdx (fun c : Cut => c.purpose == .scrapEnd) s.former.cuts = some pre.length := by
    rw [cuts, lastIdx_at (by simpa using end_) fun q mem => by simpa using last q mem]
  have moves : caseOf e p s = .extend pre.length := by
    rw [caseOf, cutOutCase_of_apart short apart, if_neg full, found]
  rw [cutOut_of_moved opened f e dropPlan (.inr moves), extendCut_at cuts]

theorem cutOut_of_no_end (full : ¬ RoomFor ((e.position : Int) - xNow s) p.startPos s.former.cuts)
    (none : ∀ q ∈ s.former.cuts, q.purpose ≠ .scrapEnd) : cutOut f e dropPlan s = (refuseCut s, false) := by
  have absent : lastIdx (fun c : Cut => c.purpose == .scrapEnd) s.former.cuts = Option.none :=
    lastIdx_of_none fun q mem => by simpa using none q mem
  refine cutOut_of_refuse opened f e dropPlan ?_
  rw [caseOf, cutOutCase_of_apart short apart, if_neg full, absent]

end Apart
end CutOut

theorem caseOf_of_room {e : MapEntry} {p : PackageRecord} {s : State} (short : s.former.cuts.length ≤ 6)
    (apart : ∀ q ∈ s.former.cuts, ¬ MergesWith ((e.position : Int) - xNow s) (xNow s) q)
    (room : RoomFor ((e.position : Int) - xNow s) p.startPos s.former.cuts) : caseOf e p s = .place := by
  rw [caseOf, cutOutCase_of_apart short apart, if_pos room]

/-! ## A cut-out with its pair beyond the start (R101) -/

@[simp] theorem cutPlaced_length (c : Cut) (l : List Cut) : (cutPlaced c l).length = l.length + 1 := by
  rw [← insertCut_placed, insertCut_length]

/-- The cuts that a cut-out beyond the start keeps: no PACKAGE_END above C1, and no plan where it replaces one
(R99, R101). -/
def keptBeyond (c1 : Int) (start : Nat) (dropPlan : Bool) (cuts : List Cut) : List Cut :=
  cuts.filter (fun c =>
    !discardedBy c1 start c && !(dropPlan && c.purpose == .packageEnd && c.plan == some .length))

theorem keptBeyond_length (c1 : Int) (start : Nat) (dropPlan : Bool) (cuts : List Cut) :
    (keptBeyond c1 start dropPlan cuts).length + cuts.countP (discardedBy c1 start) ≤ cuts.length := by
  have fewer : keptBeyond c1 start dropPlan cuts = (cuts.filter (fun c => !discardedBy c1 start c)).filter
      (fun c => !(dropPlan && c.purpose == .packageEnd && c.plan == some .length)) := by
    rw [List.filter_filter, keptBeyond]
    exact List.filter_congr fun c _ => Bool.and_comm _ _
  have split := length_filter_not_add_countP (discardedBy c1 start) cuts
  have le := List.length_filter_le (fun c : Cut =>
    !(dropPlan && c.purpose == .packageEnd && c.plan == some .length)) (cuts.filter (fun c => !discardedBy c1 start c))
  rw [fewer]
  omega

/-- The SCRAP_START of a cut-out of `e` (R101). -/
def startCut (e : MapEntry) (s : State) : Cut := newCut ((e.position : Int) - xNow s).toNat .scrapStart false none

/-- The SCRAP_END of a cut-out of `e` (R101). -/
def endCut (e : MapEntry) (s : State) (wait : Bool) (pair : Nat) : Cut :=
  newCut (e.position + e.extent + xNow s) .scrapEnd wait (some pair)

section Beyond

variable {s : State} {p : PackageRecord} (opened : s.openPackage = some p) (f : Fire) (e : MapEntry) (dropPlan : Bool)
  (places : caseOf e p s = .place) (beyond : (p.startPos : Int) < (e.position : Int) - xNow s)
include opened places beyond

theorem cutOut_of_beyond :
    let started := placeCut f (startCut e s) 1
      (setCuts (keptBeyond ((e.position : Int) - xNow s) p.startPos dropPlan s.former.cuts) s)
    cutOut f e dropPlan s =
      (placeCut f (endCut e s (stillOpen e started) (startCut e s).position) 0 started, true) := by
  have kept : s.former.cuts.filter (fun c => !(c.isPackageEnd
      && decide ((c.position : Int) > (e.position : Int) - xNow s)) && !(dropPlan && c.isPlan)) =
      keptBeyond ((e.position : Int) - xNow s) p.startPos dropPlan s.former.cuts := by
    refine List.filter_congr fun c _ => ?_
    simp only [discardedBy, Cut.isPlan, Cut.isPackageEnd, gt_iff_lt, not_le.mpr beyond, decide_false, Bool.false_or,
      Bool.and_assoc]
  rw [caseOf] at places
  rw [cutOut, opened]
  dsimp only
  rw [places]
  dsimp only
  rw [if_pos (by exact beyond), kept]
  rfl

/-- Its SCRAP_START lies ahead of the cutter, and so does its SCRAP_END (R94, R101). -/
theorem cutOut_of_pair_ahead (room : RoomFor ((e.position : Int) - xNow s) p.startPos s.former.cuts)
    (lies : s.pos < (startCut e s).position + s.cfg.cutterOffset) :
    cutOut f e dropPlan s = (setCuts (cutPlaced
      (firmed (xNow s) s.pos (endCut e s (stillOpen e s) (startCut e s).position))
      (cutPlaced (firmed (xNow s) s.pos (startCut e s))
        (keptBeyond ((e.position : Int) - xNow s) p.startPos dropPlan s.former.cuts))) s, true) := by
  have split := keptBeyond_length ((e.position : Int) - xNow s) p.startPos dropPlan s.former.cuts
  rw [RoomFor, if_pos beyond] at room
  rw [cutOut_of_beyond opened f e dropPlan places beyond]
  generalize keptBeyond ((e.position : Int) - xNow s) p.startPos dropPlan s.former.cuts = kept at split ⊢
  have started : placeCut f (startCut e s) 1 (setCuts kept s) =
      setCuts (cutPlaced (firmed (xNow s) s.pos (startCut e s)) kept) s := by
    rw [placeCut_of_ahead (s := setCuts kept s) (.inr lies), if_pos (by change kept.length < 6; omega)]
    rfl
  have further : s.pos < e.position + e.extent + xNow s + s.cfg.cutterOffset := by
    have : (startCut e s).position = ((e.position : Int) - xNow s).toNat := rfl
    omega
  have placed := placeCut_of_ahead (s := setCuts (cutPlaced (firmed (xNow s) s.pos (startCut e s)) kept) s)
    (c := endCut e s (stillOpen e s) (startCut e s).position) (.inr further) f 0
  have short : (cutPlaced (firmed (xNow s) s.pos (startCut e s)) kept).length < 6 := by
    rw [cutPlaced_length]
    omega
  rw [started]
  exact congrArg (·, true) (placed.trans (if_pos short))

/-- Its SCRAP_START lies behind the cutter and fires at once (R94, R101; log entry 48). -/
theorem cutOut_of_start_due (behind : ¬ s.pos < (startCut e s).position + s.cfg.cutterOffset) :
    let started := f (startCut e s) (s.pos - s.cfg.cutterOffset) 1
      (setCuts (keptBeyond ((e.position : Int) - xNow s) p.startPos dropPlan s.former.cuts) s)
    cutOut f e dropPlan s =
      (placeCut f (endCut e s (stillOpen e started) (startCut e s).position) 0 started, true) := by
  have due : ¬ ahead (setCuts (keptBeyond ((e.position : Int) - xNow s) p.startPos dropPlan s.former.cuts) s)
      (startCut e s) := by
    rintro (waiting | lies)
    · cases waiting
    · exact behind lies
  have placed := cutOut_of_beyond opened f e dropPlan places beyond
  dsimp only at placed
  rwa [placeCut_of_due due] at placed

end Beyond

/-! ## A cut-out that reaches back over the start (R102) -/

/-- The cut list without its PACKAGE_ENDs. -/
def noEnds (cuts : List Cut) : List Cut := cuts.filter (fun q => decide (q.purpose ≠ .packageEnd))

theorem filter_not_isPackageEnd (cuts : List Cut) : cuts.filter (fun c => !c.isPackageEnd) = noEnds cuts := by
  refine List.filter_congr fun c _ => ?_
  rw [Cut.isPackageEnd, beq_eq_decide, decide_not]

/-- The open package with a type, and the cut list. -/
def retyped (type : PackageType) (cuts : List Cut) (s : State) : State :=
  mapOpen (fun r => { r with type }) (setCuts cuts s)

section Behind

variable {s : State} {p : PackageRecord} (opened : s.openPackage = some p) (f : Fire) (e : MapEntry) (dropPlan : Bool)
  (places : caseOf e p s = .place) (behind : ¬ (p.startPos : Int) < (e.position : Int) - xNow s)
include opened places behind

theorem cutOut_of_behind : cutOut f e dropPlan s =
    (placeCut f (endCut e s (stillOpen e s) p.startPos) 0
      (retyped (typeOf 1 (noEnds s.former.cuts)) (noEnds s.former.cuts) s), true) := by
  rw [caseOf] at places
  rw [cutOut, opened]
  dsimp only
  rw [places]
  dsimp only
  rw [if_neg (by exact behind), filter_not_isPackageEnd]
  rfl

end Behind

theorem noEnds_room {s : State} {p : PackageRecord} {e : MapEntry}
    (behind : ¬ (p.startPos : Int) < (e.position : Int) - xNow s)
    (room : RoomFor ((e.position : Int) - xNow s) p.startPos s.former.cuts) : (noEnds s.former.cuts).length < 6 := by
  have all : s.former.cuts.countP (discardedBy ((e.position : Int) - xNow s) p.startPos) =
      s.former.cuts.countP Cut.isPackageEnd := by
    refine List.countP_congr fun c _ => ?_
    simp [discardedBy, Cut.isPackageEnd, not_lt.mp behind]
  have split := length_filter_not_add_countP Cut.isPackageEnd s.former.cuts
  rw [RoomFor, if_neg behind, all] at room
  rw [← filter_not_isPackageEnd]
  omega

/-- The SCRAP_END of a cut-out at the start enters the list of the package made SCRAP (R102). -/
theorem placeCut_retyped {s : State} {c : Cut} {cuts : List Cut} (f : Fire) (type : PackageType)
    (room : cuts.length < 6) (lies : ahead s c) :
    placeCut f c 0 (retyped type cuts s) = retyped type (cutPlaced (firmed (xNow s) s.pos c) cuts) s := by
  have x : xNow (retyped type cuts s) = xNow s := xNow_retyped type (setCuts cuts s)
  rw [placeCut_of_ahead (s := retyped type cuts s) lies, x, if_pos (by exact room)]
  rfl

/-! ## The events of the run map (R98, R103) -/

theorem cutsOutMajor_of_open {s : State} {p : PackageRecord} (opened : s.openPackage = some p) :
    cutsOutMajor s = (s.packagePage p.bank).cutOutMajor := by
  rw [cutsOutMajor, opened]

section Events

variable {s : State} {p : PackageRecord} (forming : s.cfg.forming = true) (opened : s.openPackage = some p) (f : Fire)
  {e : MapEntry}
include forming opened

theorem entryUpgraded_of_open : entryUpgraded f e s =
    checkPlan f (if (s.packagePage p.bank).cutOutMajor then (cutOut f e false s).1 else s) := by
  rw [entryUpgraded, State.forming, forming, opened, cutsOutMajor_of_open opened]
  rfl

theorem entryClosed_of_major (major : e.severity = .major) :
    entryClosed f s e = checkPlan f (releaseCut f e.endPos s) := by
  rw [entryClosed, State.forming, forming, opened, major]
  rfl

end Events

theorem entryClosed_of_minor {s : State} {e : MapEntry} (minor : e.severity = .minor) (f : Fire) :
    entryClosed f s e = s := by
  rw [entryClosed, minor]
  simp

theorem releaseCut_of_none {s : State} (none : ∀ q ∈ s.former.cuts, q.waiting = false) (f : Fire) (final : Nat) :
    releaseCut f final s = s := by
  rw [releaseCut, waitingCut, lastIdx_of_none none]

/-- The SCRAP_END that waits moves in the list, or fires (R94, R103). -/
theorem releaseCut_of_waiting {s : State} {pre post : List Cut} {c : Cut} (cuts : s.former.cuts = pre ++ c :: post)
    (waits : c.waiting = true) (last : ∀ q ∈ post, q.waiting = false) (f : Fire) (final : Nat) :
    releaseCut f final s = if s.pos < (c.release (final + xNow s)).position + s.cfg.cutterOffset
      then setCuts (cutMoved (firmed (xNow s) s.pos (c.release (final + xNow s))) (pre ++ post)) s
      else f (c.release (final + xNow s)) (s.pos - s.cfg.cutterOffset) 0 (setCuts (pre ++ post) s) := by
  have found : waitingCut s.former.cuts = some pre.length := by rw [waitingCut, cuts, lastIdx_at waits last]
  have there : s.former.cuts[pre.length]? = some c := by rw [cuts]; simp
  have rest : s.former.cuts.eraseIdx pre.length = pre ++ post := by
    rw [cuts, List.eraseIdx_append_of_length_le le_rfl]
    simp
  rw [releaseCut, found]
  dsimp only
  rw [there]
  dsimp only
  rw [rest, moveCut, insertCut_eq_cutMoved]
  by_cases lies : s.pos < (c.release (final + xNow s)).position + s.cfg.cutterOffset
  · rw [if_pos lies, (ahead_iff s _).mp (.inr lies), if_neg Bool.false_ne_true]
    rfl
  · have due : ¬ ahead s (c.release (final + xNow s)) := by
      rintro (waiting | ahead)
      · cases waiting
      · exact lies ahead
    rw [if_neg lies, if_pos ((not_ahead_iff s _).mp due)]

/-! ## Fires (R96, R108) -/

/-- A fire sees of its cut the close reason alone. -/
theorem fireCut_congr {c d : Cut} (same : c.closeReason = d.closeReason) (n k extra : Nat) (s : State) :
    fireCut n c k extra s = fireCut n d k extra s := by
  cases n with
  | zero => rfl
  | succ n => rw [fireCut, fireCut, same]

theorem fire_of_start {s : State} {p : PackageRecord} (opened : s.openPackage = some p) {k : Nat}
    (below : k ≤ p.startPos) (c : Cut) (extra : Nat) : fire c k extra s = retype (fireCut 5) s := by
  rw [fire, fireDepth, fireCut, opened]
  exact if_pos below

section Retype

variable {s : State} {p : PackageRecord} (opened : s.openPackage = some p) (f : Fire)
include opened

theorem retype_of_same (same : typeOf 0 s.former.cuts = p.type) : retype f s = s := by
  rw [retype, opened]
  exact if_pos same

/-- A package that becomes SCRAP loses its PACKAGE_END (R96). -/
theorem retype_of_scrap (other : typeOf 0 s.former.cuts ≠ p.type) (scrap : typeOf 0 s.former.cuts = .scrap) :
    retype f s = retyped .scrap (noEnds s.former.cuts) s := by
  rw [retype, opened]
  dsimp only
  rw [if_neg other, scrap, filter_not_isPackageEnd]
  rfl

/-- A package that becomes NORMAL is planned when its plan is due (R96). -/
theorem retype_of_normal (other : typeOf 0 s.former.cuts ≠ p.type) (normal : typeOf 0 s.former.cuts = .normal)
    (early : ¬ planDue s .normal p.startPos (s.packagePage p.bank) s.former.cuts) :
    retype f s = retyped .normal s.former.cuts s := by
  have there : (retyped .normal s.former.cuts s).openPackage = some { p with type := .normal } := by
    have opens := mapOpen_openPackage (g := fun r => { r with type := .normal }) (fun _ => rfl) s
    rw [opened] at opens
    exact opens
  rw [retype, opened]
  dsimp only
  rw [if_neg other, normal]
  exact planIfDue_of_open there early f

end Retype

end Sys2Proof.Machine
end

section
/-!
PROOF. The bank switch inside a fire, with no entry of the run map open: it hands over nothing, and leaves the cut
list and the numbering as they stand (R122, R124).
-/

namespace Sys2Proof.Machine

open Sys2Proof.Safety

/-! ## With no entry open -/

/-- No entry is open. -/
def AllClosed (entries : List MapEntry) : Prop := ∀ e ∈ entries, e.isOpen = false

theorem AllClosed.openEntry {s : State} (closed : AllClosed s.map.entries) (k : EntryKind) : s.openEntry k = none :=
  List.find?_eq_none.mpr fun e mem => by simp [closed e mem]

theorem AllClosed.closeEntry {s : State} (closed : AllClosed s.map.entries) (k : EntryKind) :
    Machine.closeEntry k s = (s, none) := by
  rw [Machine.closeEntry, closed.openEntry]

/-- An offered entry that is closed leaves no entry open (R75 to R77). -/
theorem AllClosed.offerRaw {s : State} (closed : AllClosed s.map.entries) {e : MapEntry} (shut : e.isOpen = false) :
    AllClosed (Machine.offerRaw e s).1.map.entries := by
  have inserted {l : List MapEntry} (old : AllClosed l) :
      AllClosed (insertEntry { e with forwarded := !e.isOpen } l) := fun x mem => by
    rcases List.mem_cons.mp ((insertEntry_perm _ l).mem_iff.mp mem) with rfl | mem
    · exact shut
    · exact old x mem
  have placed (e : MapEntry) (l : List MapEntry) (b : Bool) : (placeEntry e l b s).map.entries = l := by
    unfold placeEntry; dsimp only; split <;> simp
  unfold Machine.offerRaw
  dsimp only
  split
  · rename_i fits
    unfold weighOffer at fits
    split_ifs at fits with room
    · cases fits
      rw [placed]
      exact inserted closed
    · split at fits <;> cases fits
  · rename_i evicts
    unfold weighOffer at evicts
    split_ifs at evicts
    split at evicts
    · rename_i found
      cases evicts
      obtain ⟨pre, post, entries, rfl, -, -⟩ := takeFirst_some found
      rw [placed]
      refine inserted fun x mem => closed x ?_
      rw [entries]
      exact (List.sublist_cons_self _ post).append_left pre |>.subset mem
    · cases evicts
  · exact closed
  · rw [raiseSoft_map]
    exact closed

theorem switchTwist_of_closed {s : State} (closed : AllClosed s.map.entries) (old : Nat) :
    (switchTwist old s).1.former = s.former ∧ (switchTwist old s).1.map = s.map ∧ (switchTwist old s).2 = none := by
  have ended (t : Twist) : closeEntry .twist (s.setTwist t) = (s.setTwist t, none) :=
    closed.closeEntry (s := s.setTwist t) .twist
  unfold switchTwist endTwistRun
  split
  · dsimp only
    simp only [State.setTwist_twist]
    have twice (t u : Twist) : closeEntry .twist ((s.setTwist t).setTwist u) = ((s.setTwist t).setTwist u, none) :=
      closed.closeEntry (s := (s.setTwist t).setTwist u) .twist
    rw [twice]
    split <;> simp
  · exact ⟨rfl, rfl, rfl⟩

theorem switchKnot_of_closed {s : State} (closed : AllClosed s.map.entries) :
    (switchKnot s).1.former = s.former ∧ (switchKnot s).2 = [] := by
  have ended (k : Knot) (kind : EntryKind) : closeEntry kind (s.setKnot k) = (s.setKnot k, none) :=
    closed.closeEntry (s := s.setKnot k) kind
  unfold switchKnot closeKnotEntries
  split
  · dsimp only
    rw [ended, ended]
    exact ⟨rfl, rfl⟩
  · exact ⟨rfl, rfl⟩

/-! ## The cut list and the numbering -/

/-- The cut list and the next number of `t` are those of `u`. -/
structure SameCuts (u t : State) : Prop where
  cuts : t.former.cuts = u.former.cuts
  number : t.former.nextNumber = u.former.nextNumber

theorem SameCuts.frame {u s t : State} (same : SameCuts u s) (former : t.former = s.former) : SameCuts u t :=
  ⟨former ▸ same.cuts, former ▸ same.number⟩

theorem SameCuts.enqueue {u s : State} (same : SameCuts u s) (b : TxBody) : SameCuts u (Machine.enqueue b s) := by
  have dropped (b : TxBody) (t : State) (h : SameCuts u t) : SameCuts u (reportDrop b t) := by
    unfold reportDrop
    split
    · exact ⟨h.cuts, h.number⟩
    · exact h.frame rfl
    · exact h
  unfold Machine.enqueue
  dsimp only
  (repeat' split)
  · exact same.frame rfl
  all_goals exact dropped _ _ (same.frame rfl)

theorem sameCuts_mapKeeps (u : State) : MapKeeps (SameCuts u) where
  map _ _ same := same.frame rfl
  queue _ b same := same.enqueue b
  raise s c same := by
    have announced (t : State) (h : SameCuts u t) : SameCuts u (announce c t) := by
      unfold announce
      split
      case h_4 => exact h
      all_goals exact h.enqueue _
    unfold raiseSoft
    split
    · exact (announced _ (same.frame (t := s.setStation (s.station.takeLocal s.own c)) rfl)).frame (actSoft_former _)
    · exact same

/-! ## The bank switch (R122, R124) -/

/-- The part of a switch before its CHANGE entry closes what is open. -/
def changeLogged (k position : Nat) (s : State) : State :=
  (offerRaw (.offerOf .change position) (switchStates k s)).1

theorem changeLogged_closed {s : State} (closed : AllClosed s.map.entries) (k position : Nat) :
    AllClosed (changeLogged k position s).map.entries := by
  refine AllClosed.offerRaw ?_ rfl
  rw [switchStates_map]
  exact closed

theorem changeLogged_sameCuts (k position : Nat) (s : State) : SameCuts s (changeLogged k position s) :=
  (sameCuts_mapKeeps s).offerRaw ⟨by rw [switchStates_former], by rw [switchStates_former]⟩ _

/-- With no entry open a switch hands over nothing and leaves the cuts as they stand. -/
theorem switchBank_of_closed {s : State} (closed : AllClosed s.map.entries) (k position : Nat) :
    SameCuts s (switchBank k position s).1 ∧ (switchBank k position s).2 = [] := by
  obtain ⟨former, map, none⟩ :=
    switchTwist_of_closed (changeLogged_closed closed k position) s.twistPage.target10
  have still : AllClosed (switchTwist s.twistPage.target10 (changeLogged k position s)).1.map.entries :=
    map ▸ changeLogged_closed closed k position
  obtain ⟨kept, nothing⟩ := switchKnot_of_closed still
  have same := (changeLogged_sameCuts k position s).frame (kept.trans former)
  rw [changeLogged] at same nothing none
  rw [switchBank]
  dsimp only
  rw [nothing, none]
  refine ⟨?_, rfl⟩
  split
  · exact same
  · exact same.frame rfl

theorem switchBank_banks (k position : Nat) (s : State) :
    (switchBank k position s).1.banks = (switchStates k s).banks := by
  unfold switchBank
  dsimp only
  split <;> simp

theorem bank_congr {s t : State} (banks : t.banks = s.banks) (i : Nat) : t.bank i = s.bank i := by
  rw [State.bank, banks, State.bank]

theorem packagePage_congr {s t : State} {i : Nat} (same : (t.bank i).package = (s.bank i).package) :
    t.packagePage i = s.packagePage i := by
  rw [State.packagePage, same, State.packagePage]

/-- The state with the ACTIVE bank LOADED (R124). -/
def freedBanks (s : State) : State :=
  match s.activeBank with
  | some a => s.setBank a { s.bank a with state := .loaded }
  | none => s

theorem switchStates_eq (k : Nat) (s : State) : switchStates k s = banked k (freedBanks s) := rfl

theorem freedBanks_package (s : State) (i : Nat) : ((freedBanks s).bank i).package = (s.bank i).package := by
  unfold freedBanks
  split
  · rw [bank_setBank]
    split
    · rename_i here
      rw [here.1]
    · rfl
  · rfl

/-- A switch changes the states of banks and no page (R124). -/
theorem switchBank_packagePage (k position : Nat) (s : State) (i : Nat) :
    (switchBank k position s).1.packagePage i = s.packagePage i := by
  refine packagePage_congr ?_
  rw [bank_congr (switchBank_banks k position s), switchStates_eq, ← freedBanks_package s i, banked, bank_setBank]
  split
  · rename_i here
    rw [here.1]
  · rfl

/-- Of banks at most one of which is ACTIVE none is once that one is LOADED (R124). -/
theorem freedBanks_inactive {s : State} (one : s.banks.toList.countP (fun b => b.state == .active) ≤ 1) (i : Nat)
    (hi : i < 4) : ((freedBanks s).bank i).state ≠ .active := by
  have at_ (j : Nat) (hj : j < 4) : s.bank j = s.banks.toList[j]'(by simpa using hj) := by
    rw [bank_eq_getElem s hj, Vector.getElem_toList]
  unfold freedBanks
  split
  · rename_i a active
    obtain ⟨ha, there, -⟩ := List.findIdx?_eq_some_iff_getElem.mp active
    rw [bank_setBank]
    split
    · exact fun active => by cases active
    · rename_i other
      intro here
      rw [at_ i hi] at here
      refine other ⟨?_, by simpa using ha⟩
      exact index_unique_of_countP_le_one one _ ha (beq_iff_eq.mpr here) there
  · rename_i none
    rw [at_ i hi]
    exact beq_eq_false_iff_ne.mp (List.findIdx?_eq_none_iff.mp none _ (List.getElem_mem _))

theorem switchBank_activeBank {s : State} {k : Nat} (hk : k < 4)
    (one : s.banks.toList.countP (fun b => b.state == .active) ≤ 1) (position : Nat) :
    (switchBank k position s).1.activeBank = some k := by
  rw [activeBank_congr (switchBank_banks k position s), switchStates_eq]
  exact banked_activeBank hk (freedBanks_inactive one)

end Sys2Proof.Machine
end

section
/-!
PROOF. A fire above the open package's start: the close, the switch to a STAGED bank and the next package
(R15, R91, R92, R96, R108, R122).
-/

namespace Sys2Proof.Machine

open Sys2Proof.Safety

/-! ## Room in the table (R92) -/

theorem takeFirst_eq_findIdx? {α : Type} (p : α → Bool) (l : List α) :
    (takeFirst p l).map Prod.snd = (l.findIdx? p).map l.eraseIdx := by
  induction l with
  | nil => rfl
  | cons x xs ih =>
    rw [takeFirst, List.findIdx?_cons]
    split
    · rfl
    · rw [Option.map_map]
      cases taken : takeFirst p xs with
      | none =>
        rw [taken] at ih
        cases found : xs.findIdx? p with
        | none => rfl
        | some i => rw [found] at ih; cases ih
      | some r =>
        rw [taken] at ih
        cases found : xs.findIdx? p with
        | none => rw [found] at ih; cases ih
        | some i =>
          rw [found] at ih
          exact congrArg some (congrArg (x :: ·) (Option.some.inj ih))

theorem makeRoom_eq (f : Former) : f.makeRoom = roomMade f := by
  have reported := takeFirst_eq_findIdx? (fun r : PackageRecord => r.state == .reported) f.table
  have closed := takeFirst_eq_findIdx? (fun r : PackageRecord => r.state == .closed) f.table
  rw [Former.makeRoom, roomMade, Config.tableCapacity]
  split
  · rfl
  · split
    · rename_i found
      rw [found] at reported
      obtain ⟨i, index, rfl⟩ := Option.map_eq_some_iff.mp reported.symm
      rw [index]
    · rename_i none
      rw [none] at reported
      rw [Option.map_eq_none_iff.mp reported.symm]
      dsimp only
      split
      · rename_i found
        rw [found] at closed
        obtain ⟨i, index, rfl⟩ := Option.map_eq_some_iff.mp closed.symm
        rw [index]
        rfl
      · rename_i absent
        rw [absent] at closed
        rw [Option.map_eq_none_iff.mp closed.symm]

/-! ## The next package (R91) -/

/-- The record that opens at `k` with bank `b` after the cuts and the number of `s`. -/
def openedRecord (b k : Nat) (s : State) : PackageRecord :=
  { number := s.former.nextNumber, type := typeOf 0 (noEnds s.former.cuts), bank := b
    productCode := (s.packagePage b).productCode, startPos := k, endPos := none, joinCount := 0
    joins := [], defects := [], defectsDropped := 0, grade := none, reason := none
    state := .opened, report := none }

/-- `w` with the package opened at `k` that follows the one of `s`. -/
def packageOpened (b k : Nat) (s w : State) : State :=
  { w with
    former := { roomMade w.former with
      nextNumber := if s.former.nextNumber < 65535 then s.former.nextNumber + 1 else 1
      table := (roomMade w.former).table ++ [openedRecord b k s] }
    marks := marksFrom (s.packagePage b).markInterval w.marks }

/-- What the opening of the next package reads of the state `w` that a close of `s` and a switch have left. -/
structure ReadyToOpen (b : Nat) (s w : State) : Prop where
  active : w.activeBank = some b
  page : w.packagePage b = s.packagePage b
  cuts : w.former.cuts = noEnds s.former.cuts
  number : w.former.nextNumber = s.former.nextNumber
  none : NoneOpen w.former
  start : w.start = s.start
  acc : w.length.acc = s.length.acc

namespace ReadyToOpen

variable {b : Nat} {s w : State} (h : ReadyToOpen b s w)
include h

theorem openRecord (k : Nat) : Machine.openRecord k 0 w = packageOpened b k s w := by
  obtain ⟨-, number, cuts⟩ := makeRoom_spec w.former
  rw [makeRoom_eq, h.number] at number
  rw [makeRoom_eq, h.cuts] at cuts
  rw [Machine.openRecord, h.active, Option.getD_some, h.page, makeRoom_eq, packageOpened, openedRecord, ← cuts,
    ← number]
  rfl

theorem openPackage (k : Nat) : (packageOpened b k s w).openPackage = some (openedRecord b k s) := by
  obtain ⟨sub, -, -⟩ := makeRoom_spec w.former
  rw [makeRoom_eq] at sub
  have before : (roomMade w.former).table.find? (fun r => r.state == .opened) = Option.none :=
    List.find?_eq_none.mpr fun r mem => by simpa using h.none r (sub.subset mem)
  rw [State.openPackage, packageOpened, List.find?_append, before]
  rfl

/-- The next package is not planned before its plan point (R97). -/
theorem planIfDue {k : Nat} (early : ¬ planDue s (typeOf 0 (noEnds s.former.cuts)) k (s.packagePage b)
    (noEnds s.former.cuts)) (f : Fire) : Machine.planIfDue f (packageOpened b k s w) = packageOpened b k s w := by
  obtain ⟨-, -, cuts⟩ := makeRoom_spec w.former
  rw [makeRoom_eq, h.cuts] at cuts
  have shown : (packageOpened b k s w).former.cuts = noEnds s.former.cuts := cuts
  have page : (packageOpened b k s w).packagePage b = s.packagePage b := h.page
  have pos : (packageOpened b k s w).pos = s.pos := pos_congr h.acc
  have cfg : (packageOpened b k s w).cfg = s.cfg := cfg_congr h.start
  refine planIfDue_of_open (h.openPackage k) ?_ f
  change ¬ planDue _ _ k ((packageOpened b k s w).packagePage b) _
  rwa [page, shown, planDue, pos, cfg]

end ReadyToOpen

/-! ## The close in a fire (R15, R108) -/

/-- The state as the fire closes the open package: CUT high and the mark tested (R15, R96). -/
def pulsedAt (k : Nat) (p : PackageRecord) (s : State) : State :=
  { s with former := { s.former with cutHigh := true }, marks := marksAt (k - p.startPos) s.marks }

theorem testMarkAt_pulsed (k : Nat) (p : PackageRecord) (s : State) :
    testMarkAt (k - p.startPos) (s.setFormer { s.former with cutHigh := true }) = pulsedAt k p s :=
  testMarkAt_eq _ _

/-- The state with the open package closed by the cut `c`. -/
def closedByFire (c : Cut) (k : Nat) (p : PackageRecord) (s : State) : State :=
  closeRecord k c.closeReason p (pulsedAt k p s)

theorem closedByFire_noneOpen (c : Cut) (k : Nat) (p : PackageRecord) (s : State) :
    NoneOpen (closedByFire c k p s).former := by
  have closed := congrArg Prod.snd (packageView_closeRecord k c.closeReason p (pulsedAt k p s))
  have states : recordStates (closedByFire c k p s).former = _ := closed
  intro r mem opened
  have there : r.state ∈ recordStates (closedByFire c k p s).former := List.mem_map_of_mem mem
  rw [states, opened] at there
  obtain ⟨x, -, same⟩ := List.mem_map.mp there
  split at same
  · cases same
  · contradiction

/-- The state after a STAGED bank has taken effect at a boundary. -/
theorem switchStaged_of_staged {s : State} {j : Nat} (staged : s.stagedBank = some j) (position : Nat) :
    switchStaged position s = switchBank j position s := by
  rw [switchStaged, staged]

section Fire

variable {s : State} {p : PackageRecord} {c : Cut} {k b : Nat}
  (room : s.ply.queue.length + (unsentOf s.former.table).length < s.ply.room)
include room

theorem closedByFire_of_room : closedByFire c k p s = { s with
    former := { s.former with
      cutHigh := true, cuts := noEnds s.former.cuts
      table := s.former.table.map
        (recordAfterClose (closingRecord k c.closeReason p s) (unsentOf s.former.table)) }
    map := { s.map with entries := entriesAfter k s.map.entries }
    marks := marksAt (k - p.startPos) s.marks
    ply := { s.ply with queue := s.ply.queue ++ (unsentOf s.former.table).map pkgFrame
      ++ [pkgFrame (closingRecord k c.closeReason p s)] } } := by
  have closed := closeRecord_of_room (s := pulsedAt k p s) k c.closeReason p room
  rw [closedByFire, closed, takenBelow, filter_not_isPackageEnd]
  rfl

theorem closedByFire_readyToOpen (active : s.activeBank = some b) : ReadyToOpen b s (closedByFire c k p s) := by
  have none := closedByFire_noneOpen c k p s
  rw [closedByFire_of_room room] at none ⊢
  exact ⟨active, rfl, rfl, rfl, none, rfl, rfl⟩

theorem closedByFire_allClosed (closed : AllClosed s.map.entries) :
    AllClosed (closedByFire c k p s).map.entries := by
  rw [closedByFire_of_room room]
  intro e mem
  rcases List.mem_append.mp mem with tail | rest
  · obtain ⟨x, old, rfl⟩ := List.mem_map.mp tail
    exact closed x (List.mem_of_mem_filter old)
  · exact closed e (List.mem_of_mem_filter rest)

/-- The switch inside the fire hands over nothing and leaves what the opening reads (R122). -/
theorem switchStaged_closedByFire
    (lawful : ∀ j, s.stagedBank = some j → BankLawful s ∧ ∀ e ∈ s.map.entries, e.isOpen = false)
    (active : (s.stagedBank.or s.activeBank) = some b) :
    ReadyToOpen b s (switchStaged k (closedByFire c k p s)).1 ∧ (switchStaged k (closedByFire c k p s)).2 = [] := by
  have banks : (closedByFire c k p s).banks = s.banks := by rw [closedByFire_of_room room]
  have staging : (closedByFire c k p s).stagedBank = s.stagedBank := stagedBank_congr banks
  cases staged : s.stagedBank with
  | none =>
    rw [staged, Option.none_or] at active
    rw [switchStaged_of_none (staging.trans staged)]
    exact ⟨closedByFire_readyToOpen room active, rfl⟩
  | some j =>
    obtain ⟨⟨-, one, -⟩, shut⟩ := lawful j staged
    rw [staged, Option.some_or] at active
    obtain rfl := Option.some.inj active
    have few : (closedByFire c k p s).banks.toList.countP (fun b => b.state == .active) ≤ 1 := by
      rw [banks, one]
      cases s.inRun <;> decide
    obtain ⟨same, nothing⟩ := switchBank_of_closed (closedByFire_allClosed (c := c) (k := k) (p := p) room shut) j k
    have states : recordStates (switchBank j k (closedByFire c k p s)).1.former =
        recordStates (closedByFire c k p s).former := congrArg Prod.snd (packageView_switchBank j k _)
    have closed := closedByFire_of_room (c := c) (k := k) (p := p) room
    rw [switchStaged_of_staged (staging.trans staged)]
    refine ⟨⟨switchBank_activeBank (stagedBank_lt staged) few k, ?_, ?_, ?_, ?_, ?_, ?_⟩, nothing⟩
    · rw [switchBank_packagePage, closed]; rfl
    · rw [same.cuts, closed]
    · rw [same.number, closed]
    · intro r mem opened
      have there : r.state ∈ recordStates (switchBank j k (closedByFire c k p s)).1.former :=
        List.mem_map_of_mem mem
      rw [states] at there
      obtain ⟨x, old, state⟩ := List.mem_map.mp there
      exact closedByFire_noneOpen c k p s x old (state.trans opened)
    · rw [switchBank_start, closed]
    · rw [calm_acc.switchBank, closed]

/-- A fire above the start of the open package: its close, the switch, the next package and the doff. -/
theorem fire_of_beyond (opened : s.openPackage = some p) (beyond : p.startPos < k)
    (lawful : ∀ j, s.stagedBank = some j → BankLawful s ∧ ∀ e ∈ s.map.entries, e.isOpen = false)
    (active : (s.stagedBank.or s.activeBank) = some b)
    (early : ¬ planDue s (typeOf 0 (noEnds s.former.cuts)) k (s.packagePage b) (noEnds s.former.cuts)) :
    fire c k 0 s = if (s.packagePage p.bank).haltAtClose
      then raiseSoft .packageDoff (packageOpened b k s (switchStaged k (closedByFire c k p s)).1)
      else packageOpened b k s (switchStaged k (closedByFire c k p s)).1 := by
  obtain ⟨ready, nothing⟩ := switchStaged_closedByFire (c := c) (k := k) (p := p) room lawful active
  rw [fire, fireDepth, fireCut, opened]
  dsimp only
  rw [if_neg (Nat.not_le.mpr beyond), testMarkAt_pulsed, ← closedByFire, nothing, ready.openRecord,
    ready.planIfDue early]
  rfl

end Fire
end Sys2Proof.Machine
end

section
/-!
PROOF. The package former as one statement: the close's grade, the pulse, cut-outs, entries and fires.
-/

namespace Sys2Proof.Machine

open Sys2Proof.Safety

/-- Settles O19: each part by the lemmas on the operation it speaks of. -/
theorem closedPackageIsGradedByWhatItTook : Obligations.ClosedPackageIsGradedByWhatItTook := by
  refine ⟨?grade, ?pulse, ?former⟩
  case grade =>
    intro page k reason entries r below isJoin items joins closed
    have took : Took r.startPos k below (below.foldl (Taking.entry r.startPos k) Taking.nothing) := took_foldl _ _ _
    have offsets : closed.joins = ((below.filter isJoin).map (fun e => e.position - r.startPos)).take 4 := took.joins
    have kept : closed.defects = keptItems (itemsAt r.startPos k items) := took.defects
    refine ⟨rfl, rfl, rfl, rfl, rfl, rfl, took.joinCount, ?_, offsets, ?_, kept, took.dropped, ?_⟩
    · rw [offsets, List.length_take, List.length_map, List.countP_eq_length_filter]
    · rw [kept, keptItems_length, itemsAt_length]
    · exact congrArg some (took.gradeOf page r.type (k - r.startPos))
  case pulse =>
    intro s kind forming unchecked none run within t
    have start : t.start = s.start := (calm_start.formerPulse _).trans (movedByPulse_start s)
    rw [exec_activeSourcePulse, activePulse_of_forming kind forming unchecked none run within,
      testMark_of_forming (by rw [cfg_congr start, forming])]
    rfl
  case former =>
    intro s p opened page x withCuts retypedAs refused typeBy ends
    have same : xNow s = x := xNow_of_open opened
    clear_value x
    subst same
    refine ⟨?place, ?pulse, ?cutOut, ?entries, ?below, ?fire⟩
    case place =>
      exact fun c extra =>
        ⟨fun lies => placeCut_of_ahead lies fire extra, fun due => placeCut_of_due due fire extra⟩
    case pulse =>
      intro forming firm
      refine ⟨fun lie => ⟨fun early => ?_, fun due short free => ?_⟩, fun pre c post cuts lie due => ?_⟩
      · rw [formerPulse_of_ahead forming lie]
        exact planIfDue_of_open (s := firmCuts s) opened
          ((planDue_firmed s p.type p.startPos page s.former.cuts (xNow s) s.pos).not.mpr early) fire
      · have due' := (planDue_firmed s p.type p.startPos page s.former.cuts (xNow s) s.pos).mpr due
        have planned := planIfDue_of_free (s := firmCuts s) opened due' free fire
        have room : (firmCuts s).former.cuts.length < 6 := due'.2.2.2
        rw [formerPulse_of_ahead forming lie, planned, placeCut_of_ahead (.inr short), if_pos room]
        rfl
      · intro one
        have first := formerPulse_of_one forming cuts lie due
        refine ⟨fun done => first.trans (formerPulse_of_done done _), fun pre2 d post2 rest cuts2 lie2 due2 => ?_⟩
        intro two done
        obtain ⟨n, length⟩ := Nat.exists_eq_succ_of_ne_zero (List.length_pos_iff.mpr rest).ne'
        have second := fireDue_of_due (s := one) cuts2 lie2 due2 n
        rw [first, length]
        change planIfDue fire (fireDue (n + 1) one) = two
        rw [second]
        exact formerPulse_of_done done n
    case cutOut =>
      intro e dropPlan short c1 c2 waits fits beyond discarded room moved last
      refine ⟨fun pre c post cuts before merges => ?_, fun apart full => ⟨fun pre c post cuts end_ rest => ?_,
        fun none => cutOut_of_no_end opened fire e dropPlan short apart full none⟩, fun apart space far => ?_,
        fun apart space near => ⟨fun lies => ?_, fun due => ?_⟩⟩
      · have merged := cutOut_of_merge opened fire e dropPlan cuts before merges
        rwa [stillOpen_eq] at merged
      · have extended := cutOut_of_extend opened fire e dropPlan short apart cuts full end_ rest
        rwa [stillOpen_eq] at extended
      · intro kept first started
        have places := caseOf_of_room short apart space
        by_cases lies : s.pos < c1.toNat + s.cfg.cutterOffset
        · have placed := cutOut_of_pair_ahead opened fire e dropPlan places far space lies
          rw [stillOpen_eq] at placed
          rw [if_pos lies]
          exact placed
        · have placed := cutOut_of_start_due opened fire e dropPlan places far lies
          dsimp only at placed
          rw [stillOpen_eq] at placed
          rw [if_neg lies]
          exact placed
      · have placed := cutOut_of_behind opened fire e dropPlan (caseOf_of_room short apart space) near
        have ahead' : ahead s (endCut e s (stillOpen e s) p.startPos) := by rw [stillOpen_eq]; exact lies
        rw [placeCut_retyped fire _ (noEnds_room near space) ahead', stillOpen_eq] at placed
        exact placed
      · have placed := cutOut_of_behind opened fire e dropPlan (caseOf_of_room short apart space) near
        have due' : ¬ ahead (retyped (typeOf 1 (noEnds s.former.cuts)) (noEnds s.former.cuts) s)
            (endCut e s (stillOpen e s) p.startPos) := by rw [stillOpen_eq]; exact due
        rw [placeCut_of_due due', stillOpen_eq] at placed
        exact placed
    case entries =>
      intro e forming
      refine ⟨entryUpgraded_of_open forming opened fire, fun minor => entryClosed_of_minor minor fire,
        fun major none => ?_, fun pre c post major cuts last waits => ?_⟩
      · rw [entryClosed_of_major forming opened fire major, releaseCut_of_none none]
      · intro freed
        rw [entryClosed_of_major forming opened fire major, releaseCut_of_waiting cuts waits last]
        exact congrArg (checkPlan fire) (if_congr Iff.rfl rfl (fireCut_congr rfl _ _ _ _))
    case below =>
      intro c k below type
      have fired := fire_of_start opened below c 0
      exact ⟨fun same => fired.trans (retype_of_same opened _ same),
        fun other scrap => fired.trans (retype_of_scrap opened _ other scrap),
        fun other normal early => fired.trans (retype_of_normal opened _ other normal early)⟩
    case fire =>
      intro c k b beyond lawful active unsent room type early reason closed straddle taken switched roomed next
      have why : c.closeReason = reason := by
        rcases c with ⟨_, purpose, _, plan, _, _, _⟩
        cases purpose with
        | scrapStart | scrapEnd | change => rfl
        | packageEnd => rcases plan with _ | _ | _ <;> rfl
      have shut : closedByFire c k p s = taken := by
        rw [closedByFire_of_room room, why]
        rfl
      have there : (switchStaged k (closedByFire c k p s)).1 = switched := by
        have staging : taken.stagedBank = s.stagedBank := rfl
        rw [shut]
        cases staged : s.stagedBank with
        | none => simp only [switched, staged, switchStaged_of_none (staging.trans staged)]
        | some j => simp only [switched, staged, switchStaged_of_staged (staging.trans staged)]
      have fired := fire_of_beyond (c := c) room opened beyond lawful active early
      rw [there] at fired
      exact fired

end Sys2Proof.Machine
end

section
/-!
PROOF. Properties of a state that a run keeps: what the map and the former keep, and what reads no more of the state
than the bounds of the run, the states of the package records and the banks, outlasts every command within a run.
-/

namespace Sys2Proof.Machine

open Sys2Proof.Safety

@[simp] theorem advance_banks (n : Nat) (s : State) : (advance n s).banks = s.banks := by
  unfold advance; dsimp only; split <;> simp
@[simp] theorem dwellPulse_banks (s : State) : (dwellPulse s).banks = s.banks := by
  unfold dwellPulse; split <;> simp

theorem MapKeeps.offerLocal {P : State → Prop} (h : MapKeeps P) {s : State} (holds : P s) (k : EntryKind) :
    P (Machine.offerLocal k s).1 := by
  unfold Machine.offerLocal
  dsimp only
  split
  · exact h.offerRaw (h.map _ _ holds) _
  · exact h.offerRaw (h.map _ _ holds) _
  · exact h.offerRaw holds _

namespace FormerKeeps

variable {P : State → Prop} (h : FormerKeeps P) {s : State} (holds : P s)
include h holds

theorem fire (c : Cut) (k extra : Nat) : P (Machine.fire c k extra s) := h.fireCut _ _ _ _ _ holds

theorem fireDue (n : Nat) : P (Machine.fireDue n s) := by
  induction n generalizing s with
  | zero => exact holds
  | succ n ih =>
    unfold Machine.fireDue
    split
    · exact holds
    · exact ih (h.fire (h.former _ _ holds) _ _ _)

theorem formerPulse : P (Machine.formerPulse s) := by
  unfold Machine.formerPulse
  split
  · exact h.planIfDue (h.fireCut _) (h.fireDue (h.former _ _ holds) _)
  · exact holds

theorem offerEntry (e : MapEntry) : P (Machine.offerEntry e s).1 := by
  have offered := h.offerRaw holds e
  unfold Machine.offerEntry
  dsimp only
  split
  · exact h.entryInserted (h.fireCut _) offered _
  · exact offered

theorem offerPoint (k : EntryKind) : P (Machine.offerPoint k s) := by
  have offered := h.offerLocal holds k
  unfold Machine.offerPoint
  dsimp only
  split
  · exact h.entryInserted (h.fireCut _) offered _
  · exact offered

theorem startPackages : P (Machine.startPackages s) := by
  unfold Machine.startPackages
  split
  · exact h.planIfDue (h.fireCut _) (h.openRecord (h.former _ _ holds) _ _)
  · exact holds

end FormerKeeps

/-- A run keeps `P`: the map and the former do, and so does all that leaves the bounds of the run, the states of the
package records and the banks as they stand. -/
structure RunKeeps (P : State → Prop) : Prop extends FormerKeeps P where
  frame : ∀ {s t : State}, P s → packageView t = packageView s → t.banks = s.banks → P t

namespace RunKeeps

variable {P : State → Prop} (h : RunKeeps P) {s : State} (holds : P s)
include h holds

/-! ## Station control -/

theorem refreshPace : P (Machine.refreshPace s) := h.frame holds (by simp) (by simp)

theorem stopTwist : P (Machine.stopTwist s) := by
  unfold Machine.stopTwist
  split
  · exact h.tellAll _ (h.frame holds (by simp) (by simp))
  · exact holds

theorem stopKnot : P (Machine.stopKnot s) := by
  unfold Machine.stopKnot
  split
  · exact h.tellAll _ (h.frame holds (by simp) (by simp))
  · exact holds

/-- Within a run the station may pass from one state to another. -/
theorem enter {target : StationState} (run : s.inRun = true) (goesOn : target.inRun = true) :
    P (s.setStation (s.station.enter target)) := h.frame holds (packageView_enter run goesOn rfl) rfl

theorem enterStopped (run : s.inRun = true) : P (Machine.enterStopped s) := by
  have entered : P (s.setStation (s.station.enter .stopped)) := h.enter holds run rfl
  have off : P (clearDwell (s.setStation (s.station.enter .stopped))) := h.frame entered (by simp) (by simp)
  have stilled : P ((clearDwell (s.setStation (s.station.enter .stopped))).setPace
      { (clearDwell (s.setStation (s.station.enter .stopped))).pace with run := 0 }) := h.frame off rfl rfl
  have discarded := h.stopKnot (h.stopTwist stilled)
  unfold Machine.enterStopped
  dsimp only
  split
  · split
    · exact h.refreshPace (h.map _ _ discarded)
    · exact h.refreshPace (h.offerPoint discarded _)
  · exact h.refreshPace (h.offerPoint discarded _)

theorem actLevel (l : Level) : P (Machine.actLevel l s) := by
  unfold Machine.actLevel
  split
  · exact h.frame holds (by simp) (by simp)
  · split
    · exact h.frame holds (packageView_stopFromReady (inRun_of_state ‹_› rfl)) (by simp)
    · exact h.enterStopped holds (inRun_of_state ‹_› rfl)
    · exact h.enterStopped holds (inRun_of_state ‹_› rfl)
    · exact holds

theorem raiseLocal (c : LocalCause) : P (Machine.raiseLocal c s) := by
  unfold Machine.raiseLocal
  split
  · exact h.actLevel (h.frame holds (by simp) (by simp)) _
  · exact holds

theorem takeHalt (e : ListenEntry) (p : PeerHalt) : P (Machine.takeHalt e p s) := by
  unfold Machine.takeHalt
  dsimp only
  split
  · split
    · exact h.queue _ _ (h.actLevel (h.frame holds (by simp) (by simp)) _)
    · exact h.raise _ _ holds
  · exact holds

/-! ## Pulses, strokes and points -/

theorem writeDwell : P (Machine.writeDwell s) := by
  unfold Machine.writeDwell
  split
  · split
    · exact h.map _ _ holds
    · exact h.offerPoint holds _
  · exact h.offerPoint holds _

theorem writeJoin : P (Machine.writeJoin s) := by
  unfold Machine.writeJoin
  split
  · split
    · exact h.map _ _ holds
    · exact h.offerPoint holds _
  · exact h.offerPoint holds _

theorem beginDwell : P (Machine.beginDwell s) := by
  unfold Machine.beginDwell
  split
  · exact h.writeDwell (h.frame holds (by rfl) (by rfl))
  · exact holds

theorem closeWindow (ran : Bool) : P (Machine.closeWindow ran s) := by
  have settled : P (settledWindow ran s) := h.frame holds
    (by cases ran <;> simp [settledWindow, nextWindow, evaluatedWindow, storedWindow]) (by simp)
  have closed : P (closedWindow ran s) := h.tellAll _ settled
  rw [closeWindow_eq]
  split
  · exact closed
  · exact h.switch _ _ closed

theorem twistPulse (n : Nat) (ran : Bool) : P (Machine.twistPulse n ran s) := by
  unfold Machine.twistPulse
  split
  · dsimp only
    split
    · exact h.closeWindow (h.frame holds (by rfl) (by rfl)) ran
    · exact h.frame holds (by rfl) (by rfl)
  · exact holds

theorem setKnot (k : Knot) : P (s.setKnot k) := h.frame holds rfl rfl

theorem closeRow : P (Machine.closeRow s) := by
  have knotted : P (knottedRow s).1 := by
    unfold knottedRow knotRunStep
    dsimp only
    split
    · have logged (k : Knot) (start count threshold length : Nat) (now run : Bool) :=
        h.runAtMap (h.setKnot holds k) .knot start count threshold length now run
      split
      · exact h.raise _ _ (logged _ _ _ _ _ _ _)
      · exact logged _ _ _ _ _ _ _
    · exact h.closeAsHandover (h.setKnot holds _) _
  have meshed : P (meshedRow s).1 := by
    unfold meshedRow meshRunStep
    dsimp only
    split
    · exact h.runAtMap (h.setKnot knotted _) _ _ _ _ _ _ _
    · exact h.closeAsHandover (h.setKnot knotted _) _
  have told : P (toldRow s) := h.tellAll _ (h.setKnot meshed _)
  rw [closeRow_eq]
  split
  · exact told
  · exact h.switch _ _ told

theorem offerArrival (a : Arrival) : P (Machine.offerArrival s a) := by
  unfold Machine.offerArrival
  split
  · exact h.map _ _ holds
  · exact h.offerEntry holds _

theorem arrivalsPulse (n : Nat) : P (Machine.arrivalsPulse n s) := by
  unfold Machine.arrivalsPulse
  exact foldl_keeps_of (P := P) (fun _ a holds => h.offerArrival holds a) _ (h.frame holds (by rfl) (by rfl))

theorem joinArrivals (a : Arrival) : P (Machine.joinArrivals a s) := by
  refine h.frame holds (by simp) ?_
  unfold Machine.joinArrivals
  (repeat' split) <;> simp [countArrivalDropped]

theorem acceptHandoff (e : ListenEntry) (r : HandoffRead) : P (Machine.acceptHandoff e r s) := by
  unfold Machine.acceptHandoff
  dsimp only
  split
  · exact h.offerArrival (h.frame holds (by rfl) (by rfl)) _
  · exact h.joinArrivals (h.frame holds (by rfl) (by rfl)) _

theorem closeSpan : P (Machine.closeSpan s) := by
  have closed (l : Length) : P (s.setLength l) := h.frame holds rfl rfl
  rw [closeSpan_eq]
  dsimp only
  generalize (if slipLimit s < slipOf s.length.la s.length.lb then s.length.badSpans + 1 else 0) = bad
  split
  · split
    · exact h.offerEntry (closed _) _
    · exact h.raise _ _ (closed _)
  · exact closed _

theorem slipPulse (n : Nat) : P (Machine.slipPulse n s) := by
  unfold Machine.slipPulse
  dsimp only
  split_ifs
  · exact holds
  · exact h.closeSpan (h.frame holds (by rfl) (by rfl))
  · exact h.frame holds (by rfl) (by rfl)

theorem activePulse : P (Machine.activePulse s) := by
  have retained : P (retain s.pos (advance s.activeStep (dwellPulse s))) := h.frame holds (by simp) (by simp)
  have measured : P (beforeArrivals s) :=
    h.frame (h.formerPulse (h.twistPulse retained s.activeStep (s.station.state == .run)))
      (by simp [beforeArrivals]) (by simp [beforeArrivals])
  cases run : s.inRun
  · rwa [activePulse_outside run]
  · rw [activePulse_of_inRun run]
    exact h.slipPulse (h.arrivalsPulse measured _) _

/-! ## The regulation tick -/

theorem tickDwell : P (Machine.tickDwell s) := by
  unfold Machine.tickDwell
  dsimp only
  split_ifs
  · exact h.beginDwell (h.frame holds (by rfl) (by rfl))
  · exact h.frame holds (by rfl) (by rfl)
  · exact holds

theorem tickRamp : P (Machine.tickRamp s) := by
  unfold Machine.tickRamp
  split
  · exact h.frame holds (by rfl) (by rfl)
  · rename_i easing
    dsimp only
    split
    · exact h.enterStopped (h.frame holds (by rfl) (by rfl)) (inRun_of_state easing rfl)
    · exact h.frame holds (by rfl) (by rfl)
  · exact holds

theorem tickPace : P (Machine.tickPace s) := by
  unfold Machine.tickPace
  split
  · have offered : P (computeOffers (s.setPace
        { s.pace with listen := mapTable ListenEntry.tick s.pace.listen })) := h.frame holds rfl rfl
    exact h.frame (h.tickRamp offered) (packageView_tickPeriod _) (by simp)
  · exact holds

theorem tick : P (Machine.tick s) := by
  unfold Machine.tick
  split
  · exact holds
  · exact h.frame (h.tickPace (h.tickDwell holds)) (packageView_tickSetpoint _) (by simp)

end RunKeeps

end Sys2Proof.Machine
end

section
/-!
PROOF. The requests, the frames and the line's own events within a run: what a run keeps outlasts every command but
those of reset and START, once run start and the requests keep it.
-/

namespace Sys2Proof.Machine

open Sys2Proof.Safety

/-- Run start and every request keep `P` beside what a run keeps. -/
structure CommandKeeps (P : State → Prop) : Prop extends RunKeeps P where
  startRun : ∀ {s : State} {k : Nat}, P s → s.station.state = .idle → s.station.restartPending = false →
    (s.bank k).state = .loaded → P (startRun k s)
  perform : ∀ {s : State} {code : Nat} (args : List Byte), P s →
    (code = 8 → s.station.restartPending = false) → P (perform code args s).1

namespace RunKeeps

variable {P : State → Prop} (h : RunKeeps P) {s : State} (holds : P s)
include h holds

theorem takeGo (ready : s.station.state = .ready) (origin : Nat) : P (Machine.takeGo origin s) :=
  h.frame holds (packageView_takeGo ready origin) (by simp)

theorem clearCauses (force : Bool) : P (Machine.clearCauses force s) := h.frame holds (by simp) (by simp)

/-- The requests that write no bank, begin or end no run and ask for no restart (R190). -/
theorem perform {code : Nat} (other : code ∉ [7, 8, 9, 13, 14]) (args : List Byte) :
    P (Machine.perform code args s).1 := by
  -- one case for each request code of R190, in the order of the codes
  unfold Machine.perform
  split
  case h_1 => unfold doStatus; dsimp only; (repeat' split) <;> exact holds
  case h_2 => unfold doLine; dsimp only; (repeat' split) <;> exact h.frame holds rfl rfl
  case h_3 => unfold doPeers inService; dsimp only; (repeat' split) <;> exact holds
  case h_4 => unfold doMap inService; (repeat' split) <;> exact holds
  case h_5 => unfold doPackage inService; (repeat' split) <;> exact holds
  case h_6 => unfold doBankRead inService; dsimp only; (repeat' split) <;> exact holds
  case h_10 =>
    unfold doGo
    split
    · split
      · exact h.takeGo holds ‹_› _
      · exact holds
    · exact holds
  case h_11 =>
    unfold doStop
    split
    · split
      · exact holds
      · split
        · exact holds
        · exact h.raiseLocal holds _
    · exact holds
  case h_12 =>
    have acts (force : Bool) : P (inService s (Machine.clearCauses force s, .done 0 [])).1 := by
      unfold inService
      split
      · exact h.clearCauses holds _
      · exact holds
    unfold doClear
    dsimp only
    split
    · exact acts false
    · split_ifs
      · exact acts false
      · exact acts true
      · exact holds
    · exact holds
  case h_15 => exact holds
  all_goals exact absurd (by decide) other

/-! ## The line's own events (R181 to R186) -/

theorem setPly (p : Ply) : P (s.setPly p) := h.frame holds rfl rfl

theorem reportSent (b : TxBody) : P (Machine.reportSent b s) := by
  unfold Machine.reportSent
  split
  · exact h.former _ _ holds
  · exact h.frame holds (packageView_setStation rfl rfl) rfl
  · exact holds

theorem startAccess : P (Machine.startAccess s) := by
  unfold Machine.startAccess
  (repeat' split)
  · exact h.frame holds (by simp) (by simp)
  all_goals exact holds

theorem frameSent : P (Machine.frameSent s) := by
  unfold Machine.frameSent
  split
  · exact h.reportSent (h.setPly holds _) _
  · split
    · exact h.setPly holds _
    · exact holds

theorem collide : P (Machine.collide s) := by
  unfold Machine.collide
  dsimp only
  split
  · split
    · exact h.setPly holds _
    · split
      · exact h.setPly holds _
      · exact h.frame holds (by simp) (by simp)
  · exact holds

theorem nextInBurst : P (Machine.nextInBurst s) := by
  unfold Machine.nextInBurst
  split
  · split
    · exact holds
    · split
      · split
        · exact h.frame holds (by simp) (by simp)
        · exact h.setPly holds _
      · exact h.setPly holds _
  · exact holds

end RunKeeps

namespace CommandKeeps

variable {P : State → Prop} (h : CommandKeeps P) {s : State} (holds : P s)
include h holds

/-! ## Frames (R187, R188, R191) -/

theorem takeAsk (f : RxFrame) : P (Machine.takeAsk f s) := by
  have held : P (holdPlace true s) := h.setPly holds _
  have performed (code : Nat) (args : List Byte) : P (performAsk code args (holdPlace true s)).1 := by
    unfold performAsk
    split
    · exact held
    · rename_i served
      refine h.perform _ held fun run => ?_
      simp only [barred, run] at served
      simp_all
  unfold Machine.takeAsk
  split
  · split
    · unfold askAll
      split_ifs with those
      · exact holds
      · exact h.perform _ holds fun run => by simp [run] at those
      · exact h.setPly holds _
    · unfold askHere
      split
      · exact h.setPly (performed _ _) _
      · exact h.setPly holds _
  · exact holds

theorem handOn (kind : BitVec 4) (f : RxFrame) : P (Machine.handOn kind f s) := by
  unfold Machine.handOn
  split_ifs
  · exact h.takeAsk holds f
  · exact holds
  · unfold takePace
    split
    · exact holds
    · exact h.frame holds rfl rfl
  · unfold haltFrame
    split
    · exact h.takeHalt holds _ _
    · exact holds
  · unfold resumeFrame
    split
    · exact h.frame holds (by simp) (by simp)
    · exact holds
  · unfold goFrame
    split
    · split
      · exact h.takeGo holds ‹_› _
      · exact holds
    · exact holds
  · have ignored : P (s.setPace { s.pace with handoffsIgnored := sat Config.count16 s.pace.handoffsIgnored }) :=
      h.frame holds rfl rfl
    unfold handoffFrame
    dsimp only
    split
    · split
      · exact h.acceptHandoff holds _ _
      · exact ignored
    · exact ignored
  · exact holds

theorem receive (kind : BitVec 4) (f : RxFrame) : P (Machine.receive kind f s) := by
  have heard (fate : RxFate) : P (hearFrame fate s) := h.setPly holds _
  unfold Machine.receive
  dsimp only
  split_ifs
  · exact holds
  · exact h.setPly holds _
  · split
    · exact h.setPly (heard _) _
    · exact heard _
    · exact h.setPly (heard (rxFate s.own kind f)) _
    · exact h.handOn (heard _) kind f

theorem receiveLine (chars : List LineByte) : P (Machine.receiveLine chars s) := by
  unfold Machine.receiveLine receiveBytes
  split_ifs
  · exact holds
  · exact h.setPly holds _
  · exact h.setPly (h.setPly holds _) _
  · exact h.setPly (h.setPly holds _) _
  · exact h.receive holds _ _

/-! ## Every command but those of reset and START -/

theorem exec {c : Instr} {t : State} (performed : Machine.exec c s = .next t) (other : startsOver c = false) :
    P t := by
  cases c <;> cases performed
  case coldReset | resetRelease | blockReadAttempt | readRetry | warmRestart => cases other
  case activeSourcePulse => exact h.activePulse holds
  case nonActiveSourcePulse =>
    unfold nonActivePulse
    (repeat' split)
    case isFalse => exact holds
    all_goals exact h.frame holds rfl rfl
  case spindlePulse =>
    unfold spindlePulse
    split
    · exact h.frame holds rfl rfl
    · exact holds
  case rowStroke =>
    unfold rowStroke
    split
    · exact h.closeRow holds
    · exact holds
  case sectionEdge =>
    unfold sectionEdge
    split
    · exact h.setKnot holds _
    · exact holds
  case jniEdge =>
    unfold jniEdge
    split
    · exact h.writeJoin holds
    · exact holds
  case brkActive =>
    split
    · exact holds
    · have pressed : P (s.setStation { s.station with brkActive := true }) :=
        h.frame holds (packageView_setStation rfl rfl) rfl
      exact h.raiseLocal pressed _
  case brkInactive => exact h.frame holds (packageView_setStation rfl rfl) rfl
  case stpEdge => exact h.raiseLocal holds _
  case staEdge =>
    split
    · split
      · rename_i idle free
        obtain ⟨free, loaded⟩ := Bool.and_eq_true_iff.mp free
        exact h.startRun holds idle (by simpa using free) (by simpa using loaded)
      · exact holds
    · exact h.takeGo holds ‹_› _
    all_goals exact holds
  case clrEdge =>
    split
    · exact h.clearCauses holds _
    · exact holds
  case regulationTick => exact h.tick holds
  case dwellStart => exact h.beginDwell holds
  case pacePeriodExpiry => exact h.refreshPace holds
  case peerStale =>
    unfold staleAt
    dsimp only
    split
    · exact h.frame holds rfl rfl
    · exact holds
  case markShiftComplete => exact h.marks _ _ holds
  case cutPulseEnd => exact h.former _ _ holds
  case accessStart => exact h.startAccess holds
  case frameSent => exact h.frameSent holds
  case collision => exact h.collide holds
  case normalHoldTimeout =>
    unfold holdTimeout
    split
    · exact h.setPly holds _
    · exact holds
  case receiveError => exact h.receiveLine holds _
  case burstNextFrame => exact h.nextInBurst holds
  all_goals exact h.receive holds _ _

end CommandKeeps

end Sys2Proof.Machine
end

section
/-!
PROOF. The ACTIVE and the STAGED bank: how many banks are in a state, and that a bank switch, a CHANGE, a page written,
run start and END keep exactly one ACTIVE while a run exists and at most one STAGED (R115, R125).
-/

namespace Sys2Proof.Machine

open Sys2Proof.Safety

/-! ## Counting the banks in a state -/

/-- How many banks are in a state. -/
def bankCount (x : BankState) (banks : Vector Bank 4) : Nat := banks.toList.countP (fun b => b.state == x)

theorem bankCount_pos {s : State} {k : Nat} {x : BankState} (hk : k < 4) (here : (s.bank k).state = x) :
    0 < bankCount x s.banks := by
  refine List.countP_pos_iff.mpr ⟨s.bank k, ?_, by simp [here]⟩
  rw [bank_eq_getElem s hk]
  simp

/-- Replacing bank `k` moves it from the count of its old state to that of its new one. -/
theorem bankCount_setBank {s : State} {k : Nat} (hk : k < 4) (x : BankState) (b : Bank) :
    bankCount x (s.setBank k b).banks + flag ((s.bank k).state == x) = bankCount x s.banks + flag (b.state == x) := by
  have old : flag ((s.bank k).state == x) ≤ bankCount x s.banks := by
    unfold flag
    split
    · exact bankCount_pos hk (eq_of_beq ‹_›)
    · exact Nat.zero_le _
  have hk' : k < s.banks.toList.length := by simpa using hk
  rw [bank_eq_getElem s hk] at old ⊢
  simp only [bankCount, State.setBank, dif_pos hk, State.setBanks_banks, Vector.toList_set, List.countP_set hk',
    Vector.getElem_toList]
  simp only [bankCount, flag] at old ⊢
  omega

theorem bankIn_some {s : State} {x : BankState} {k : Nat} (found : s.bankIn x = some k) :
    k < 4 ∧ (s.bank k).state = x := by
  obtain ⟨hk, here, -⟩ := List.findIdx?_eq_some_iff_getElem.mp found
  have hk : k < 4 := by simpa using hk
  rw [bank_eq_getElem s hk]
  exact ⟨hk, by simpa using here⟩

theorem bankIn_none {s : State} {x : BankState} (none : s.bankIn x = none) : bankCount x s.banks = 0 := by
  refine List.countP_eq_zero.mpr fun b mem => ?_
  rw [List.findIdx?_eq_none_iff.mp none b mem]
  exact Bool.false_ne_true

theorem state_ne_of_bankCount {s : State} {x : BankState} (none : bankCount x s.banks = 0) {k : Nat} (hk : k < 4) :
    (s.bank k).state ≠ x :=
  fun here => (bankCount_pos hk here).ne' none

/-- A bank number beyond 3 names the bank of reset, which is EMPTY. -/
theorem lt_of_not_empty {s : State} {k : Nat} (full : (s.bank k).state ≠ .empty) : k < 4 := by
  by_contra beyond
  rw [State.bank, List.getD_eq_default _ _ (by simpa using beyond)] at full
  exact full rfl

theorem lt_of_loaded {s : State} {k : Nat} (loaded : (s.bank k).state = .loaded) : k < 4 :=
  lt_of_not_empty (by rw [loaded]; decide)

/-! ## The bank found in a state, made LOADED (R121, R124) -/

/-- The state with the bank found in state `x` LOADED. -/
def freedIn (x : BankState) (s : State) : State :=
  match s.bankIn x with
  | some a => s.setBank a { s.bank a with state := .loaded }
  | none => s

theorem freedBanks_eq (s : State) : freedBanks s = freedIn .active s := rfl

theorem bankCount_freedIn_other {x y : BankState} (other : y ≠ x) (run : y ≠ .loaded) (s : State) :
    bankCount y (freedIn x s).banks = bankCount y s.banks := by
  unfold freedIn
  split
  · rename_i a found
    obtain ⟨ha, here⟩ := bankIn_some found
    have counts := bankCount_setBank (s := s) ha y { s.bank a with state := .loaded }
    rwa [here, beq_false_of_ne other.symm, beq_false_of_ne run.symm, Nat.add_right_cancel_iff] at counts
  · rfl

theorem bankCount_freedIn_self {x : BankState} (run : x ≠ .loaded) {s : State} (one : bankCount x s.banks ≤ 1) :
    bankCount x (freedIn x s).banks = 0 := by
  unfold freedIn
  split
  · rename_i a found
    obtain ⟨ha, here⟩ := bankIn_some found
    have counts := bankCount_setBank (s := s) ha x { s.bank a with state := .loaded }
    rw [here, beq_self_eq_true, beq_false_of_ne run.symm] at counts
    exact Nat.le_zero.mp (Nat.add_le_add_iff_right (n := 1) |>.mp (counts.le.trans one))
  · exact bankIn_none ‹_›

theorem freedIn_bank_of_ne {x : BankState} {s : State} {k : Nat} (other : (s.bank k).state ≠ x) :
    (freedIn x s).bank k = s.bank k := by
  unfold freedIn
  split
  · rename_i a found
    rw [bank_setBank, if_neg]
    rintro ⟨rfl, -⟩
    exact other (bankIn_some found).2
  · rfl

/-- With one bank at most in the state every bank in it is LOADED, and no other changes. -/
theorem freedIn_bank {x : BankState} (run : x = .active ∨ x = .staged) {s : State} (one : bankCount x s.banks ≤ 1)
    (j : Nat) : (freedIn x s).bank j =
      if (s.bank j).state = x then { s.bank j with state := .loaded } else s.bank j := by
  have only : x ≠ .loaded := by obtain rfl | rfl := run <;> decide
  split
  · rename_i here
    have hj : j < 4 := lt_of_not_empty (s := s) (by rw [here]; obtain rfl | rfl := run <;> decide)
    have freed : ((freedIn x s).bank j).state ≠ x := state_ne_of_bankCount (bankCount_freedIn_self only one) hj
    revert freed
    unfold freedIn
    split
    · rw [bank_setBank]
      split
      · rename_i same
        intro _
        rw [same.1]
      · exact fun freed => absurd here freed
    · exact fun freed => absurd here freed
  · exact freedIn_bank_of_ne ‹_›

/-! ## One ACTIVE bank or none -/

/-- A run is bounded as in `v`; one bank is ACTIVE or none is, by `run`, and no more are STAGED (R115, R125). -/
structure OneActive (v : RunView) (run : Bool) (s : State) : Prop where
  view : runView s = v
  active : bankCount .active s.banks = flag run
  staged : bankCount .staged s.banks ≤ flag run

theorem bankLawful_iff (s : State) : BankLawful s ↔ runBounds s ∧ OneActive (runView s) s.inRun s :=
  and_congr_right fun _ => ⟨fun ⟨active, staged⟩ => ⟨rfl, active, staged⟩, fun ⟨_, active, staged⟩ => ⟨active, staged⟩⟩

theorem runBounds_congr {s t : State} (bounds : runBounds s) (view : runView t = runView s) : runBounds t := by
  obtain ⟨starting, pending⟩ := bounds
  obtain ⟨start, restart, run, state⟩ := RunView.mk.inj view
  refine ⟨fun early => ?_, fun restarts => ?_⟩
  · have here := starting (start ▸ early)
    rw [here] at state
    simpa using state
  · rw [run]
    exact pending (restart ▸ restarts)

namespace OneActive

variable {v : RunView} {run : Bool} {s t : State}

theorem frame (h : OneActive v run s) (view : runView t = runView s) (banks : t.banks = s.banks) :
    OneActive v run t :=
  ⟨view.trans h.view, banks ▸ h.active, banks ▸ h.staged⟩

/-- The banks as they stand, in whatever bounds. -/
theorem rebound (h : OneActive v run s) (banks : t.banks = s.banks) : OneActive (runView t) run t :=
  ⟨rfl, banks ▸ h.active, banks ▸ h.staged⟩

theorem lawful (h : OneActive (runView s) s.inRun t) (bounds : runBounds s) : BankLawful t := by
  have run : t.inRun = s.inRun := congrArg RunView.run h.view
  exact (bankLawful_iff t).mpr ⟨runBounds_congr bounds h.view, rfl, run ▸ h.active, run ▸ h.staged⟩

/-- A bank that neither was nor becomes ACTIVE or STAGED does not count. -/
theorem setBank (h : OneActive v run s) {k : Nat} {b : Bank} (hk : k < 4)
    (old : (s.bank k).state ≠ .active ∧ (s.bank k).state ≠ .staged) (new : b.state ≠ .active ∧ b.state ≠ .staged) :
    OneActive v run (s.setBank k b) := by
  have counts (x : BankState) := bankCount_setBank (s := s) hk x b
  have active := counts .active
  have staged := counts .staged
  simp only [beq_false_of_ne old.1, beq_false_of_ne old.2, beq_false_of_ne new.1, beq_false_of_ne new.2,
    Nat.add_right_cancel_iff] at active staged
  exact ⟨(congrArg Prod.fst (packageView_setBank s k b)).trans h.view, active ▸ h.active, staged ▸ h.staged⟩

end OneActive

namespace OneActive

variable {v : RunView} {s : State}

/-- A switch takes the one ACTIVE bank for the other, and unstages that other (R124). -/
theorem switchBank (h : OneActive v true s) {k : Nat} (hk : k < 4) (other : (s.bank k).state ≠ .active)
    (position : Nat) : OneActive v true (Machine.switchBank k position s).1 := by
  have none : bankCount .active (freedIn .active s).banks = 0 := bankCount_freedIn_self (by decide) h.active.le
  have same : bankCount .staged (freedIn .active s).banks = _ := bankCount_freedIn_other (by decide) (by decide) s
  have kept := freedIn_bank_of_ne other
  have active := bankCount_setBank (s := freedIn .active s) hk .active
    { (freedIn .active s).bank k with state := .active }
  have staged := bankCount_setBank (s := freedIn .active s) hk .staged
    { (freedIn .active s).bank k with state := .active }
  rw [kept] at active staged
  rw [beq_false_of_ne other, none] at active
  rw [same] at staged
  refine ⟨(congrArg Prod.fst (packageView_switchBank k position s)).trans h.view, ?_, ?_⟩
  · rw [switchBank_banks, switchStates_eq, freedBanks_eq, banked, kept]
    exact active
  · rw [switchBank_banks, switchStates_eq, freedBanks_eq, banked, kept]
    exact (Nat.le_add_right _ _).trans (staged.le.trans h.staged)

theorem switchStaged {run : Bool} (h : OneActive v run s) (position : Nat) :
    OneActive v run (Machine.switchStaged position s).1 := by
  unfold Machine.switchStaged
  split
  · rename_i k found
    obtain ⟨hk, here⟩ := bankIn_some found
    obtain rfl : run = true := by
      have some := bankCount_pos hk here
      have most := h.staged
      cases run
      · simp [flag] at most; omega
      · rfl
    exact h.switchBank hk (by simp [here]) position
  · exact h

end OneActive

theorem oneActive_runKeeps (v : RunView) (run : Bool) : RunKeeps (OneActive v run) where
  map _ _ h := h.frame rfl rfl
  queue s b h := h.frame (congrArg Prod.fst (packageView_enqueue b s)) (by simp)
  raise s c h := h.frame (congrArg Prod.fst (packageView_raiseSoft c s)) (by simp)
  former _ _ h := h.frame rfl rfl
  marks _ _ h := h.frame rfl rfl
  switch _ p h := h.switchStaged p
  frame h same banks := h.frame (congrArg Prod.fst same) banks

/-- What a run keeps of the banks, it keeps of the law on them. -/
theorem bankLawful_of_kept {s t : State} (lawful : BankLawful s)
    (kept : ∀ {v : RunView} {run : Bool}, OneActive v run s → OneActive v run t) : BankLawful t := by
  obtain ⟨bounds, one⟩ := (bankLawful_iff s).mp lawful
  exact (kept one).lawful bounds

theorem bankLawful_runKeeps : RunKeeps BankLawful where
  map s b lawful := bankLawful_of_kept lawful ((oneActive_runKeeps _ _).map s b)
  queue s b lawful := bankLawful_of_kept lawful ((oneActive_runKeeps _ _).queue s b)
  raise s c lawful := bankLawful_of_kept lawful ((oneActive_runKeeps _ _).raise s c)
  former s b lawful := bankLawful_of_kept lawful ((oneActive_runKeeps _ _).former s b)
  marks s b lawful := bankLawful_of_kept lawful ((oneActive_runKeeps _ _).marks s b)
  switch s p lawful := bankLawful_of_kept lawful ((oneActive_runKeeps _ _).switch s p)
  frame lawful same banks := bankLawful_of_kept lawful fun h => (oneActive_runKeeps _ _).frame h same banks

/-- Without a run no bank is ACTIVE or STAGED, and the bounds hold of any block and station. -/
theorem bankLawful_of_no_run {t : State} (active : bankCount .active t.banks = 0)
    (staged : bankCount .staged t.banks = 0) (idle : t.inRun = false)
    (starting : t.start.phase ≠ .over → t.station.state = .start) : BankLawful t :=
  (bankLawful_iff t).mpr ⟨⟨starting, fun _ => idle⟩, rfl, by rw [idle]; exact active, by rw [idle]; exact staged.le⟩

theorem no_bank_of_no_run {s : State} (lawful : BankLawful s) (idle : s.inRun = false) :
    bankCount .active s.banks = 0 ∧ bankCount .staged s.banks = 0 := by
  obtain ⟨-, active, staged⟩ := lawful
  rw [idle] at active staged
  exact ⟨active, Nat.le_zero.mp staged⟩

end Sys2Proof.Machine
end

section
/-!
PROOF. The banks through run start, END, the requests, resets and START, and the step lemma on the ACTIVE bank.
-/

namespace Sys2Proof.Machine

open Sys2Proof.Safety

/-! ## Run start and END (R120, R125, R151, R157) -/

theorem RunKeeps.startBlocks {P : State → Prop} (h : RunKeeps P) {s : State} {k : Nat} (holds : P (banked k s)) :
    P (Machine.startBlocks k s) := by
  have cleared : P (clearedBlocks k s) := h.frame holds rfl rfl
  rw [startBlocks_eq]
  split
  · exact h.startPackages cleared
  · exact h.marks _ _ cleared

/-- In IDLE with no restart pending a run may begin within its bounds. -/
theorem readied_runBounds {s : State} (bounds : runBounds s) (idle : s.station.state = .idle)
    (free : s.station.restartPending = false) {k : Nat} (start : (startBlocks k s).start = s.start) :
    runBounds (readied k s) := by
  have begun : s.start.phase = .over := by
    by_contra early
    exact absurd (idle.symm.trans (bounds.1 early)) (by decide)
  refine ⟨fun early => absurd ?_ early, fun restarts => ?_⟩
  · rw [readied, changeState_start, start, begun]
  · rw [readied_station] at restarts
    exact absurd (restarts.symm.trans free) (by decide)

theorem startRun_bankLawful {s : State} {k : Nat} (lawful : BankLawful s) (idle : s.station.state = .idle)
    (free : s.station.restartPending = false) (loaded : (s.bank k).state = .loaded) : BankLawful (startRun k s) := by
  have still : s.inRun = false := by rw [State.inRun, idle]; rfl
  obtain ⟨active, staged⟩ := no_bank_of_no_run lawful still
  have hk := lt_of_loaded loaded
  have begins (x : BankState) := bankCount_setBank (s := s) hk x { s.bank k with state := .active }
  simp only [loaded] at begins
  have first : OneActive (runView s) true (banked k s) := by
    refine ⟨congrArg Prod.fst (packageView_setBank _ _ _), (begins .active).trans ?_, ?_⟩
    · rw [active]; rfl
    · have none : bankCount .staged (banked k s).banks = 0 := (begins .staged).trans (by rw [staged]; rfl)
      exact none.le.trans (Nat.zero_le _)
  have blocks := (oneActive_runKeeps (runView s) true).startBlocks first
  have start : (startBlocks k s).start = s.start := congrArg RunView.start blocks.view
  have bounds := readied_runBounds lawful.1 idle free start
  have run : (readied k s).inRun = true := by rw [State.inRun, readied_station]; rfl
  have begun : BankLawful (readied k s) :=
    (bankLawful_iff _).mpr ⟨bounds, by rw [run]; exact blocks.rebound (changeState_banks _ _)⟩
  rw [startRun, ← readied]
  split
  · exact bankLawful_runKeeps.raiseLocal begun _
  · exact begun

theorem bankCount_atEnd (banks : Vector Bank 4) {x : BankState} (run : x = .active ∨ x = .staged) :
    bankCount x (banks.map Bank.atEnd) = 0 := by
  refine List.countP_eq_zero.mpr fun b mem => ?_
  rw [Vector.toList_map] at mem
  obtain ⟨old, -, rfl⟩ := List.mem_map.mp mem
  unfold Bank.atEnd
  obtain rfl | rfl := run <;> split <;> simp_all

theorem endRun_start (s : State) : (endRun s).start = s.start := by
  have same := congrArg Prod.fst ((packageView_endedCauses _).trans (packageView_endedBlocks (closeAtEnd s)))
  rw [endRun_eq, changeState_start]
  exact (congrArg RunView.start same).trans (closeAtEnd_start s)

theorem endRun_bankLawful {s : State} (lawful : BankLawful s)
    (stands : s.station.state = .ready ∨ s.station.state = .stopped) : BankLawful (endRun s) := by
  have begun : s.start.phase = .over := by
    by_contra early
    obtain here | here := stands <;> exact absurd (here.symm.trans (lawful.1.1 early)) (by decide)
  refine bankLawful_of_no_run ?_ ?_ ?_ fun early => ?_
  · rw [endRun_banks]; exact bankCount_atEnd _ (.inl rfl)
  · rw [endRun_banks]; exact bankCount_atEnd _ (.inr rfl)
  · rw [State.inRun, endRun_eq, changeState_station]; rfl
  · exact absurd (by rw [endRun_start, begun]) early

/-! ## A page written and a CHANGE (R117, R121) -/

theorem Bank.complete_state (b : Bank) : b.complete.state = b.state ∨ b.complete.state = .loaded := by
  unfold Bank.complete
  split
  · exact .inr rfl
  · exact .inl rfl

/-- A page written leaves its bank in its state or makes it LOADED (R117). -/
theorem writePage_state (b : Bank) (page : Nat) (bytes : List Byte) :
    (writePage b page bytes).1.state = b.state ∨ (writePage b page bytes).1.state = .loaded := by
  unfold writePage
  split <;> exact Bank.complete_state _

theorem doBankWrite_bankLawful {s : State} (lawful : BankLawful s) (args : List Byte) :
    BankLawful (doBankWrite args s).1 := by
  unfold doBankWrite inService
  dsimp only
  split
  · rename_i k p bytes
    split_ifs with malformed _ used
    · exact lawful
    · exact lawful
    · have hk : k.toNat < 4 := by omega
      have old := not_or.mp used
      refine bankLawful_of_kept lawful fun h => h.setBank hk old ?_
      obtain same | loaded := writePage_state (s.bank k.toNat) p.toNat bytes
      · rwa [same]
      · rw [loaded]
        exact ⟨by decide, by decide⟩
    · exact lawful
  · exact lawful

theorem stageBank_eq (k : Nat) (s : State) : stageBank k s =
    if (freedIn .staged s).cfg.kind = .plain ∧ (freedIn .staged s).forming = false
    then (switchBank k (freedIn .staged s).pos (freedIn .staged s)).1
    else (freedIn .staged s).setBank k { (freedIn .staged s).bank k with state := .staged } := rfl

theorem packageView_freedIn (x : BankState) (s : State) : packageView (freedIn x s) = packageView s := by
  unfold freedIn; split <;> simp

theorem OneActive.stageBank {v : RunView} {s : State} (h : OneActive v true s) {k : Nat}
    (loaded : (s.bank k).state = .loaded) : OneActive v true (Machine.stageBank k s) := by
  have hk := lt_of_loaded loaded
  have active : bankCount .active (freedIn .staged s).banks = _ := bankCount_freedIn_other (by decide) (by decide) s
  have staged : bankCount .staged (freedIn .staged s).banks = 0 := bankCount_freedIn_self (by decide) h.staged
  have kept : (freedIn .staged s).bank k = s.bank k := freedIn_bank_of_ne (by rw [loaded]; decide)
  have freed : OneActive v true (freedIn .staged s) :=
    ⟨(congrArg Prod.fst (packageView_freedIn _ s)).trans h.view, active.trans h.active, by rw [staged]; decide⟩
  rw [stageBank_eq]
  split
  · exact freed.switchBank hk (by rw [kept, loaded]; decide) _
  · have counts (x : BankState) := bankCount_setBank (s := freedIn .staged s) hk x
      { (freedIn .staged s).bank k with state := .staged }
    simp only [kept, loaded] at counts
    rw [kept]
    refine ⟨(congrArg Prod.fst (packageView_setBank _ _ _)).trans freed.view, (counts .active).trans freed.active,
      ((counts .staged).trans ?_).le⟩
    rw [staged]
    rfl

theorem doChange_bankLawful {s : State} (lawful : BankLawful s) (args : List Byte) :
    BankLawful (doChange args s).1 := by
  unfold doChange
  split
  · split_ifs with _ run
    · exact lawful
    · exact lawful
    · have run : s.inRun = true := by simpa using run
      split
      · exact lawful
      · exact lawful
      · exact lawful
      · rename_i loaded
        obtain ⟨bounds, one⟩ := (bankLawful_iff s).mp lawful
        rw [run] at one
        have kept := one.stageBank loaded
        rw [← run] at kept
        exact kept.lawful bounds
  · exact lawful

/-! ## Requests -/

theorem doRun_bankLawful {s : State} (lawful : BankLawful s) (free : s.station.restartPending = false)
    (args : List Byte) : BankLawful (doRun args s).1 := by
  unfold doRun
  split
  · rename_i k
    split_ifs with range idle written
    · exact lawful
    · exact lawful
    · exact lawful
    · have idle : s.station.state = .idle := not_not.mp idle
      obtain ⟨active, staged⟩ := no_bank_of_no_run lawful (by rw [State.inRun, idle]; rfl)
      have hk : k.toNat < 4 := by omega
      have inactive := state_ne_of_bankCount active hk
      have unstaged := state_ne_of_bankCount staged hk
      refine startRun_bankLawful lawful idle free ?_
      cases state : (s.bank k.toNat).state <;> simp_all
  · exact lawful

theorem doEnd_bankLawful {s : State} (lawful : BankLawful s) (args : List Byte) : BankLawful (doEnd args s).1 := by
  unfold doEnd
  split
  · split
    · exact endRun_bankLawful lawful ‹_›
    · exact lawful
  · exact lawful

/-- A RESTART is accepted in IDLE and HELD only, where no run exists (R158). -/
theorem doRestart_bankLawful {s : State} (lawful : BankLawful s) (args : List Byte) :
    BankLawful (doRestart args s).1 := by
  unfold doRestart
  split
  · split
    · rename_i stands
      have still : s.inRun = false := by
        rw [State.inRun]
        obtain here | here := stands <;> rw [here] <;> rfl
      obtain ⟨active, staged⟩ := no_bank_of_no_run lawful still
      exact bankLawful_of_no_run active staged still lawful.1.1
    · exact lawful
  · exact lawful

theorem bankLawful_commandKeeps : CommandKeeps BankLawful where
  toRunKeeps := bankLawful_runKeeps
  startRun lawful idle free loaded := startRun_bankLawful lawful idle free loaded
  perform {s code} args lawful free := by
    by_cases other : code ∈ [7, 8, 9, 13, 14]
    · simp only [List.mem_cons, List.not_mem_nil, or_false] at other
      obtain rfl | rfl | rfl | rfl | rfl := other
      · exact doBankWrite_bankLawful lawful args
      · exact doRun_bankLawful lawful (free rfl) args
      · exact doChange_bankLawful lawful args
      · exact doEnd_bankLawful lawful args
      · exact doRestart_bankLawful lawful args
    · exact bankLawful_runKeeps.perform lawful other args

/-! ## Reset and START (R197 to R203) -/

/-- No bank is ACTIVE or STAGED. -/
def NoneInRun (s : State) : Prop := bankCount .active s.banks = 0 ∧ bankCount .staged s.banks = 0

theorem noneInRun_of_starting {s : State} (lawful : BankLawful s) (starting : s.start.phase ≠ .over) : NoneInRun s :=
  no_bank_of_no_run lawful (by rw [State.inRun, lawful.1.1 starting]; rfl)

theorem NoneInRun.frame {s t : State} (none : NoneInRun s) (banks : t.banks = s.banks) : NoneInRun t := by
  rwa [NoneInRun, banks]

/-- A bank that becomes EMPTY or LOADED leaves none ACTIVE or STAGED. -/
theorem NoneInRun.setBank {s : State} (none : NoneInRun s) {k : Nat} {b : Bank}
    (new : b.state ≠ .active ∧ b.state ≠ .staged) : NoneInRun (s.setBank k b) := by
  by_cases hk : k < 4
  · have counts (x : BankState) := bankCount_setBank (s := s) hk x b
    have active := counts .active
    have staged := counts .staged
    rw [none.1, beq_false_of_ne new.1] at active
    rw [none.2, beq_false_of_ne new.2] at staged
    exact ⟨Nat.eq_zero_of_add_eq_zero_right active, Nat.eq_zero_of_add_eq_zero_right staged⟩
  · simpa [State.setBank, hk] using none

theorem toHeld_bankLawful {s : State} (none : NoneInRun s) (r : StartReason) : BankLawful (toHeld r s) :=
  bankLawful_of_no_run none.1 none.2 rfl fun early => absurd rfl early

theorem toIdle_bankLawful {s : State} (none : NoneInRun s) : BankLawful (toIdle s) := by
  have banks : (toIdle s).banks = s.banks := by rw [toIdle, changeState_banks]; rfl
  refine bankLawful_of_no_run (banks ▸ none.1) (banks ▸ none.2) ?_ fun early => ?_
  · rw [State.inRun, toIdle, changeState_station]; rfl
  · exact absurd (by rw [toIdle, changeState_start]; rfl) early

theorem judgeBlock_bankLawful {s : State} (none : NoneInRun s) (bs : List Byte) : BankLawful (judgeBlock bs s) := by
  have read : NoneInRun (s.setStart { s.start with image := some bs }) := none
  have taken : NoneInRun (takeValues bs (s.setStart { s.start with image := some bs })) := by
    unfold takeValues
    refine NoneInRun.setBank ?_ ⟨nofun, nofun⟩
    exact read.frame rfl
  unfold judgeBlock
  dsimp only
  split_ifs
  · exact toHeld_bankLawful read _
  · exact toHeld_bankLawful read _
  · exact toIdle_bankLawful taken
  · exact toHeld_bankLawful taken _

/-- A change of START's block in START is lawful: the station stays in START. -/
theorem setStart_bankLawful {s : State} (lawful : BankLawful s) (starting : s.start.phase ≠ .over)
    (b : StartBlock) : BankLawful (s.setStart b) := by
  obtain ⟨active, staged⟩ := noneInRun_of_starting lawful starting
  have state : s.station.state = .start := lawful.1.1 starting
  exact bankLawful_of_no_run active staged (by rw [State.inRun, State.setStart_station, state]; rfl) fun _ => state

theorem readAttempt_bankLawful {s : State} (lawful : BankLawful s) (r : ReadResult) :
    BankLawful (readAttempt r s) := by
  unfold readAttempt
  split
  · rename_i attempting
    have starting : s.start.phase ≠ .over := by simp [attempting]
    have counted : NoneInRun (s.setStart (s.start.attempted r)) := noneInRun_of_starting lawful starting
    dsimp only
    split
    · exact judgeBlock_bankLawful counted _
    all_goals
      split
      · exact setStart_bankLawful lawful starting _
      · exact toHeld_bankLawful counted _
  · exact lawful

theorem coldReset_bankLawful (s : State) : BankLawful (coldReset s) :=
  ⟨⟨fun _ => rfl, fun _ => rfl⟩, rfl, (by decide : 0 ≤ 0)⟩

/-- A warm restart comes while a restart is pending, so without a run; banks 1 to 3 are kept (R196). -/
theorem warmRestart_bankLawful {s : State} (lawful : BankLawful s) (pending : s.station.restartPending = true)
    (straps : Straps) : BankLawful (warmRestart straps s) := by
  have told : (dropReports s.ply.queue s).banks = s.banks :=
    foldl_keeps (fun t => t.banks) (fun t (f : QFrame) => reportDrop f.body t) (fun t f => by simp) _ s
  have before : NoneInRun (dropReports s.ply.queue s) :=
    NoneInRun.frame (no_bank_of_no_run lawful (lawful.1.2 pending)) told
  obtain ⟨active, staged⟩ := before.setBank (k := 0) (b := .reset) ⟨by decide, by decide⟩
  exact bankLawful_of_no_run active staged rfl fun _ => rfl

theorem exec_startsOver_bankLawful {c : Instr} {s t : State} (performed : exec c s = .next t)
    (lawful : BankLawful s) (starts : startsOver c = true) : BankLawful t := by
  cases c <;> cases performed
  case coldReset => exact coldReset_bankLawful s
  case resetRelease =>
    unfold releaseReset
    split
    · exact setStart_bankLawful lawful (by simp [*]) _
    · exact lawful
  case blockReadAttempt => exact readAttempt_bankLawful lawful _
  case readRetry =>
    unfold retryRead
    split
    · exact setStart_bankLawful lawful (by simp [*]) _
    · exact lawful
  case warmRestart =>
    unfold takeWarmRestart
    split
    · exact warmRestart_bankLawful lawful (by simp_all) _
    · exact lawful
  all_goals cases starts

/-- Settles O56: a waiting command keeps the banks lawful, and an idle slot of the line does not touch them. -/
theorem stepsKeepOneActiveBank : Obligations.StepsKeepOneActiveBank := by
  intro s t lawful stepped
  unfold step at stepped
  split at stepped
  · cases stepped
    unfold idleSlot
    split
    · exact bankLawful_runKeeps.setPly lawful _
    · exact lawful
  · rename_i c rest _
    have taken : BankLawful (s.setPending rest) := bankLawful_runKeeps.frame lawful rfl rfl
    cases starts : startsOver c
    · exact bankLawful_commandKeeps.exec taken stepped starts
    · exact exec_startsOver_bankLawful stepped taken starts

end Sys2Proof.Machine
end

section
/-!
PROOF. The report of the pace slot: the in-service cause as the first cause of lowest rank, and the obligation about
the pace period reaching 0 (R129, R130, R165).
-/

namespace Sys2Proof.Machine

open Sys2Proof.Safety

/-! ## The in-service cause (R165) -/

/-- `a` is the cause of lowest rank of a list, and of those of its rank the first. -/
structure FirstLowest (l : List HeldCause) (a : HeldCause) : Prop where
  mem : a ∈ l
  lowest : ∀ b ∈ l, a.cause.rank ≤ b.cause.rank
  first : ∀ {pre post : List HeldCause} {p : HeldCause}, l = pre ++ p :: post →
    (∀ q ∈ pre, q.cause.rank ≠ a.cause.rank) → p.cause.rank = a.cause.rank → p = a

theorem firstLowest_singleton (a : HeldCause) : FirstLowest [a] a where
  mem := List.mem_singleton_self a
  lowest b mem := by rw [List.mem_singleton.mp mem]
  first {pre post p} split _ _ := by
    cases pre with
    | nil => exact (List.cons.inj split).1.symm
    | cons q pre => simp at split

/-- A cause before the rest of a list is in service when its rank is not above that of the rest's (R165). -/
theorem FirstLowest.cons {l : List HeldCause} {b : HeldCause} (rest : FirstLowest l b) (a : HeldCause) :
    FirstLowest (a :: l) (a.lower (some b)) := by
  unfold HeldCause.lower
  dsimp only
  split
  · rename_i le
    refine ⟨List.mem_cons_self, fun c mem => ?_, fun {pre post p} split before _ => ?_⟩
    · rcases List.mem_cons.mp mem with rfl | mem
      · exact le_rfl
      · exact le.trans (rest.lowest c mem)
    · cases pre with
      | nil => exact (List.cons.inj split).1.symm
      | cons q pre => exact absurd (by rw [(List.cons.inj split).1]) (before q List.mem_cons_self)
  · rename_i above
    refine ⟨List.mem_cons_of_mem _ rest.mem, fun c mem => ?_, fun {pre post p} split before equal => ?_⟩
    · rcases List.mem_cons.mp mem with rfl | mem
      · exact (not_le.mp above).le
      · exact rest.lowest c mem
    · cases pre with
      | nil =>
        obtain ⟨rfl, -⟩ := List.cons.inj split
        exact absurd equal.le above
      | cons q pre => exact rest.first (List.cons.inj split).2 (fun x mem => before x (List.mem_cons_of_mem _ mem)) equal

theorem lowestRank_firstLowest {l : List HeldCause} (some_ : l ≠ []) :
    ∃ a, lowestRank l = some a ∧ FirstLowest l a := by
  induction l with
  | nil => exact absurd rfl some_
  | cons a l ih =>
    cases l with
    | nil => exact ⟨a, rfl, firstLowest_singleton a⟩
    | cons b l =>
      obtain ⟨c, lowest, first⟩ := ih (List.cons_ne_nil b l)
      exact ⟨a.lower (some c), by rw [lowestRank, lowest], first.cons a⟩

/-- The rank of a peer halt record (section 8.2). -/
def peerRank (p : PeerHalt) : Nat := if p.level = .hard then 3 else 5

theorem peerHalt_rank (p : PeerHalt) : (Cause.peerHalt p.level).rank = peerRank p := by
  unfold peerRank
  cases p.level <;> rfl

theorem LocalCause.rank_ne (c : LocalCause) : c.rank ≠ 3 ∧ c.rank ≠ 5 := by
  cases c <;> exact ⟨by decide, by decide⟩

theorem held_ranks (own : Nat) (st : Station) :
    (st.held own).map (fun h => h.cause.rank) = st.locals.map (fun c => c.rank) ++ st.peers.map peerRank := by
  simp only [Station.held, List.map_append, List.map_map]
  congr 1
  exact List.map_congr_left fun p _ => peerHalt_rank p

theorem held_eq_nil_iff (own : Nat) (st : Station) : st.held own = [] ↔ st.setEmpty = true := by
  simp [Station.held, Station.setEmpty]

theorem inService_of_empty {own : Nat} {st : Station} (empty : st.setEmpty = true) : st.inService own = none := by
  rw [Station.inService, (held_eq_nil_iff own st).mpr empty]
  rfl

/-- A cause in service that no peer record ranks with is local, under this station's number. -/
theorem FirstLowest.origin_of_local {own : Nat} {st : Station} {a : HeldCause} (first : FirstLowest (st.held own) a)
    (hard : a.cause.rank ≠ 3) (soft : a.cause.rank ≠ 5) : a.origin = own := by
  rcases List.mem_append.mp first.mem with mem | mem
  · obtain ⟨c, -, rfl⟩ := List.mem_map.mp mem
    rfl
  · obtain ⟨p, -, rfl⟩ := List.mem_map.mp mem
    rw [peerHalt_rank, peerRank] at hard soft
    split at hard <;> simp_all

/-- A peer halt record as a held cause. -/
def PeerHalt.asCause (p : PeerHalt) : HeldCause := ⟨.peerHalt p.level, p.origin⟩

/-- Of the peer records of the rank in service the one taken first is in service. -/
theorem FirstLowest.origin_of_peer {own : Nat} {st : Station} {a : HeldCause} (first : FirstLowest (st.held own) a)
    {pre post : List PeerHalt} {p : PeerHalt} (peers : st.peers = pre ++ p :: post)
    (before : ∀ q ∈ pre, peerRank q ≠ a.cause.rank) (equal : peerRank p = a.cause.rank) : a.origin = p.origin := by
  have split : st.held own = (st.locals.map (fun c => ⟨.loc c, own⟩) ++ pre.map PeerHalt.asCause)
      ++ p.asCause :: post.map PeerHalt.asCause := by
    rw [Station.held, peers, List.map_append, List.map_cons, ← List.append_assoc]
    rfl
  refine congrArg HeldCause.origin (first.first split (fun q mem => ?_) ((peerHalt_rank p).trans equal)).symm
  rcases List.mem_append.mp mem with mem | mem
  · obtain ⟨c, -, rfl⟩ := List.mem_map.mp mem
    obtain ⟨hard, soft⟩ := c.rank_ne
    rw [← equal]
    unfold peerRank
    split
    · exact hard
    · exact soft
  · obtain ⟨r, old, rfl⟩ := List.mem_map.mp mem
    exact (peerHalt_rank r).trans_ne (before r old)

/-! ## The report -/

theorem refreshPace_of_reports {s : State} (reports : s.station.state.reports = true) :
    refreshPace s = { s with
      ply := { s.ply with paceWaiting := some ⟨buildReport s, 0⟩ }
      pace := { s.pace with period := s.cfg.pacePeriod } } := if_pos reports

theorem refreshPace_of_silent {s : State} (silent : s.station.state.reports = false) : refreshPace s = s :=
  if_neg (by simp [silent])

theorem buildReport_window (s : State) : ((buildReport s).lastD10, (buildReport s).windowCount) =
    if s.cfg.kind = .laying then (s.twist.lastD10, s.twist.windowCount) else (0, 0) := by
  have laying := isLaying_iff s
  unfold buildReport
  dsimp only
  split <;> simp_all

theorem buildReport_productCode_of_none {s : State} (none : s.activeBank = none) :
    (buildReport s).productCode = 0 := by simp [buildReport, none]

theorem buildReport_productCode_of_some {s : State} {k : Nat} (active : s.activeBank = some k) :
    (buildReport s).productCode = (s.packagePage k).productCode := by
  simp [buildReport, State.activePackagePage, active]

/-- Settles O30: the report is `buildReport`, and its in-service cause is `lowestRank_firstLowest`. -/
theorem pacePeriodExpiryRefreshesTheSlot : Obligations.PacePeriodExpiryRefreshesTheSlot := by
  intro s
  refine ⟨fun silent => congrArg _ (refreshPace_of_silent silent), fun reports => ⟨buildReport s,
    congrArg _ (refreshPace_of_reports reports), rfl, rfl, rfl, rfl, rfl, rfl, buildReport_window s, rfl,
    buildReport_productCode_of_none, fun k => buildReport_productCode_of_some, fun empty => ?_, fun held => ?_,
    fun none => ?_, fun h first => ?_⟩⟩
  · simp [buildReport, inService_of_empty empty, Code.cause, Code.origin]
  · obtain ⟨a, service, first⟩ := lowestRank_firstLowest (l := s.station.held s.own)
      (fun nil => by simp [(held_eq_nil_iff _ _).mp nil] at held)
    have cause : (buildReport s).serviceCause = a.cause.rank := congrArg Code.cause service
    have origin : (buildReport s).serviceOrigin = a.origin := congrArg Code.origin service
    rw [cause, origin]
    refine ⟨?_, ?_, first.origin_of_local, fun pre p post => first.origin_of_peer⟩
    · exact (held_ranks s.own s.station).subst (motive := fun l => a.cause.rank ∈ l) (List.mem_map_of_mem first.mem)
    · exact (held_ranks s.own s.station).subst (motive := fun l => ∀ n ∈ l, a.cause.rank ≤ n)
        (List.forall_mem_map.mpr first.lowest)
  · exact ⟨congrArg Code.cause none, congrArg Code.origin none⟩
  · exact ⟨congrArg Code.cause first, congrArg Code.origin first⟩

end Sys2Proof.Machine
end

section
/-!
PROOF. The pages of a recipe bank as they are read from their bytes, BANK_WRITE with its answer, and the recipe image
of the configuration block (R116, R117, R118, R195, R201).
-/

namespace Sys2Proof.Machine

open Sys2Proof.Safety

/-! ## Fields as bytes (R177) -/

/-- A field within the first `n` bytes is one of them. -/
theorem field_take {off len n : Nat} (within : off + len ≤ n) (bs : List Byte) :
    field off len (bs.take n) = field off len bs := by
  simp only [field, slice, List.drop_take, List.take_take]
  rw [min_eq_left (by omega)]

theorem field_succ {off : Nat} (len : Nat) {bs : List Byte} (inside : off + len < bs.length) :
    field off (len + 1) bs = field off len bs * 256 + at1 bs (off + len) := by
  have last : (bs.drop off).take (len + 1) = (bs.drop off).take len ++ [bs.getD (off + len) 0] := by
    rw [List.take_succ_eq_append_getElem (by rw [List.length_drop]; omega), List.getElem_drop,
      List.getD_eq_getElem _ _ inside]
  simp only [field, slice, unbe, last, List.foldl_append, List.foldl_cons, List.foldl_nil]
  rfl

/-- A byte that a run of bytes does not have reads as 0. -/
theorem field_one (off : Nat) (bs : List Byte) : field off 1 bs = at1 bs off := by
  by_cases inside : off < bs.length
  · simpa [field, slice, unbe] using field_succ (off := off) 0 (bs := bs) inside
  · have beyond : bs.length ≤ off := not_lt.mp inside
    simp [field, slice, unbe, at1, List.drop_eq_nil_of_le beyond, List.getElem?_eq_none beyond]

theorem field_two {off : Nat} {bs : List Byte} (inside : off + 1 < bs.length) : field off 2 bs = at2 bs off := by
  rw [field_succ 1 inside, field_one, at2]

theorem field_three {off : Nat} {bs : List Byte} (inside : off + 2 < bs.length) : field off 3 bs = at3 bs off := by
  rw [field_succ 2 inside, field_two (by omega), at3]

theorem field_four {off : Nat} {bs : List Byte} (inside : off + 3 < bs.length) : field off 4 bs = at4 bs off := by
  rw [field_succ 3 inside, field_three (by omega), at4]

theorem at1_lt (bs : List Byte) (i : Nat) : at1 bs i < 256 := BitVec.isLt _

theorem at1_drop (bs : List Byte) (n i : Nat) : at1 (bs.drop n) i = at1 bs (n + i) := by
  simp [at1, List.getD_eq_getElem?_getD, List.getElem?_drop]

/-! ## Clamped fields (R117) -/

/-- A clamped field is counted when it changed. -/
theorem clampCount_eq (lo hi v : Nat) : clampCount lo hi v = (max lo (min hi v), changed v (max lo (min hi v))) := by
  by_cases same : max lo (min hi v) = v <;> simp [clampCount, clampNat, changed, flag, same]

/-! ## The pages (R195) -/

theorem readTwistPage_take {bs : List Byte} (long : 10 ≤ bs.length) :
    readTwistPage (bs.take 10) = ⟨(twistWritten bs).1, (twistWritten bs).2, 0⟩ := by
  simp (disch := omega) only [readTwistPage, twistWritten, field_take, field_one, field_two, clampCount_eq,
    Nat.zero_max]

theorem readKnotPage_take {bs : List Byte} (long : 11 ≤ bs.length) :
    readKnotPage (bs.take 11) = ⟨(knotWritten bs).1, (knotWritten bs).2,
      flag (decide (at1 bs 3 ≠ 1 ∧ at1 bs 3 ≠ 2)) + flag (decide (at1 bs 10 ≠ 1 ∧ at1 bs 10 ≠ 2))⟩ := by
  have byte : min 255 (at1 bs 5) = at1 bs 5 := min_eq_right (Nat.le_of_lt_succ (at1_lt bs 5))
  simp (disch := omega) only [readKnotPage, knotWritten, field_take, field_one, field_two, clampCount_eq, byte]

theorem readPackagePage_take {bs : List Byte} (long : 20 ≤ bs.length) :
    readPackagePage (bs.take 20) = ⟨(packageWritten bs).1, (packageWritten bs).2,
      flag (decide (1 < at1 bs 15)) + flag (decide (1 < at1 bs 16))⟩ := by
  simp (disch := omega) only [readPackagePage, packageWritten, field_take, field_one, field_two, field_three,
    field_four, clampCount_eq, Nat.zero_max, gt_iff_lt]

/-! ## A page written into a bank (R117) -/

/-- The bank and the count of clamped fields that a page of a number makes of a bank, before the bank's state. -/
def pageWritten (b : Bank) (page : Nat) (bytes : List Byte) : Bank × Nat :=
  match page with
  | 0 => ({ b with twist := some (twistWritten bytes).1 }, (twistWritten bytes).2)
  | 1 => ({ b with knot := some (knotWritten bytes).1 }, (knotWritten bytes).2)
  | _ => ({ b with package := some (packageWritten bytes).1 }, (packageWritten bytes).2)

/-- How many choice fields of a page name no choice (R118). -/
def badChoices (page : Nat) (bytes : List Byte) : Nat :=
  match page with
  | 0 => 0
  | 1 => flag (decide (at1 bytes 3 ≠ 1 ∧ at1 bytes 3 ≠ 2)) + flag (decide (at1 bytes 10 ≠ 1 ∧ at1 bytes 10 ≠ 2))
  | _ => flag (decide (1 < at1 bytes 15)) + flag (decide (1 < at1 bytes 16))

theorem writePage_eq {page : Nat} {bytes : List Byte} (length : bytes.length = pageBytes page) (b : Bank) :
    writePage b page bytes =
      ((pageWritten b page bytes).1.complete, (pageWritten b page bytes).2, badChoices page bytes) := by
  have whole : bytes.take (pageBytes page) = bytes := List.take_of_length_le length.le
  match page with
  | 0 =>
    have read := readTwistPage_take (bs := bytes) length.ge
    rw [show bytes.take 10 = bytes from whole] at read
    simp only [writePage, read]
    rfl
  | 1 =>
    have read := readKnotPage_take (bs := bytes) length.ge
    rw [show bytes.take 11 = bytes from whole] at read
    simp only [writePage, read]
    rfl
  | page + 2 =>
    have read := readPackagePage_take (bs := bytes) length.ge
    rw [show bytes.take 20 = bytes from whole] at read
    simp only [writePage, read]
    rfl

theorem Bank.complete_eq (b : Bank) : b.complete = { b with
    state := if b.state = .empty ∧ b.twist.isSome = true ∧ b.knot.isSome = true ∧ b.package.isSome = true
      then .loaded else b.state } := by
  unfold Bank.complete
  simp only [Bool.and_eq_true, beq_iff_eq, and_assoc]
  split <;> rfl

theorem pageWritten_state (b : Bank) (page : Nat) (bytes : List Byte) :
    (pageWritten b page bytes).1.state = b.state := by
  unfold pageWritten; split <;> rfl

/-! ## The request's operands (R117, R118, R190) -/

theorem flag_eq_zero (b : Bool) : flag b = 0 ↔ b = false := by cases b <;> simp [flag]

theorem operandsFit_bankWrite (k page : Byte) (bytes : List Byte) : operandsFit 7 (k :: page :: bytes) = true ↔
    k.toNat ≤ 3 ∧ page.toNat ≤ 2 ∧ bytes.length = pageBytes page.toNat ∧ badChoices page.toNat bytes = 0 := by
  have fits : operandsFit 7 (k :: page :: bytes) = (decide (k.toNat ≤ 3)
      && (decide (page.toNat = 0 ∧ bytes.length + 2 = 12)
        || (decide (page.toNat = 1 ∧ bytes.length + 2 = 13) && decide (1 ≤ at1 bytes 3 ∧ at1 bytes 3 ≤ 2)
          && decide (1 ≤ at1 bytes 10 ∧ at1 bytes 10 ≤ 2))
        || decide (page.toNat = 2 ∧ bytes.length + 2 = 22 ∧ at1 bytes 15 ≤ 1 ∧ at1 bytes 16 ≤ 1))) := rfl
  rw [fits]
  generalize page.toNat = n
  simp only [Bool.and_eq_true, Bool.or_eq_true, decide_eq_true_eq]
  match n with
  | 0 => simp [pageBytes, badChoices]
  | 1 =>
    simp only [pageBytes, badChoices, Nat.add_eq_zero_iff, flag_eq_zero, decide_eq_false_iff_not, true_and]
    omega
  | 2 =>
    simp only [pageBytes, badChoices, Nat.add_eq_zero_iff, flag_eq_zero, decide_eq_false_iff_not, true_and]
    omega
  | n + 3 => omega

theorem doBankWrite_of_unfit {args : List Byte} (unfit : operandsFit 7 args = false) (s : State) :
    doBankWrite args s = refuse .malformed s := by
  unfold doBankWrite
  split
  · rename_i k page bytes
    refine if_pos ?_
    by_contra fit
    simp only [not_or, not_lt, not_not] at fit
    obtain ⟨bank, number, length, choices⟩ := fit
    rw [writePage_eq length] at choices
    rw [(operandsFit_bankWrite k page bytes).mpr ⟨bank, number, length, choices⟩] at unfit
    cases unfit
  · rfl

theorem doBankWrite_of_fit {k page : Byte} {bytes : List Byte} (fit : operandsFit 7 (k :: page :: bytes) = true)
    {s : State} (reports : s.station.state.reports = true) :
    doBankWrite (k :: page :: bytes) s =
      if (s.bank k.toNat).state = .active ∨ (s.bank k.toNat).state = .staged then refuse .bankInUse s
      else (s.setBank k.toNat (pageWritten (s.bank k.toNat) page.toNat bytes).1.complete,
        .written (pageWritten (s.bank k.toNat) page.toNat bytes).2) := by
  obtain ⟨bank, number, length, choices⟩ := (operandsFit_bankWrite k page bytes).mp fit
  rw [doBankWrite, writePage_eq length, if_neg (by simp [not_lt.mpr bank, not_lt.mpr number, length, choices]), inService,
    if_pos reports]

/-! ## The answer (R190, R191, R192) -/

/-- A request that is performed and answered leaves the line as `answered` says (R191). -/
theorem receiveAsk_of_performed {h : AskHead} {s u : State} (ask : asked h s) {code : Byte} {args : List Byte}
    {a : Answer} (short : args.length ≤ 22) (final : a.restart = false)
    (performed : performAsk code.toNat args (holdPlace true (heard s)) = (holdPlace true (heard u), a)) :
    receiveAsk code ⟨h, args⟩ s =
      answered h code (BitVec.ofNat 8 a.result) (BitVec.ofNat 8 a.detail) a.data u := by
  rw [receiveAsk_of_asked ask code short, performed]
  dsimp only
  rw [payload_eq, final, BitVec.ofNat_toNat, BitVec.setWidth_eq]
  rfl

/-- A malformed request is refused so wherever it is refused at all (R190). -/
theorem performAsk_of_malformed {code : Nat} {args : List Byte} {s : State}
    (malformed : perform code args s = refuse .malformed s) : performAsk code args s = refuse .malformed s := by
  unfold performAsk barredAnswer
  rw [malformed]
  split <;> rfl

theorem setBank_held (k : Nat) (b : Bank) (s : State) :
    (holdPlace true (heard s)).setBank k b = holdPlace true (heard (s.setBank k b)) := by
  unfold State.setBank; split <;> rfl

/-! ## The recipe image (R116, R201) -/

theorem imageBank_eq {image : List Byte} (long : 128 ≤ image.length) : imageBank image = {
    state := .loaded, twist := some (twistWritten (image.drop 83)).1
    knot := some (knotWritten (image.drop 93)).1, package := some (packageWritten (image.drop 104)).1 } := by
  rw [imageBank, slice, slice, slice, readTwistPage_take (by rw [List.length_drop]; omega),
    readKnotPage_take (by rw [List.length_drop]; omega), readPackagePage_take (by rw [List.length_drop]; omega)]

theorem imageReplaced_eq {image : List Byte} (long : 128 ≤ image.length) :
    imageReplaced image = (twistWritten (image.drop 83)).2
      + (knotWritten (image.drop 93)).2 + (packageWritten (image.drop 104)).2
      + ([96, 103].countP (fun i => at1 image i ≠ 1 ∧ at1 image i ≠ 2))
      + ([119, 120].countP (fun i => 1 < at1 image i)) := by
  rw [imageReplaced, slice, slice, slice, readTwistPage_take (by rw [List.length_drop]; omega),
    readKnotPage_take (by rw [List.length_drop]; omega), readPackagePage_take (by rw [List.length_drop]; omega)]
  simp only [at1_drop, List.countP_cons, List.countP_nil, flag, Nat.reduceAdd]
  omega

/-- Settles O44: the page stored is `pageWritten`, and the recipe image is read by the same functions. -/
theorem bankWriteStoresAClampedPage : Obligations.BankWriteStoresAClampedPage := by
  refine ⟨fun s h args ask short unfit => ?malformed, fun s h k page bytes ask service fit => ?fits,
    fun image long => ⟨imageBank_eq long, imageReplaced_eq long⟩⟩
  case malformed =>
    exact congrArg _ (receiveAsk_of_performed (code := 7) ask short rfl
      (performAsk_of_malformed (doBankWrite_of_unfit unfit (holdPlace true (heard s)))))
  case fits =>
    have short : (k :: page :: bytes).length ≤ 22 := by
      obtain ⟨-, -, length, -⟩ := (operandsFit_bankWrite k page bytes).mp fit
      have most : pageBytes page.toNat ≤ 20 := by unfold pageBytes; split <;> decide
      simp only [List.length_cons]
      omega
    have performed := (performAsk_of_serving (s := holdPlace true (heard s)) service 7 (k :: page :: bytes)).trans
      (doBankWrite_of_fit (s := holdPlace true (heard s)) fit service.2)
    intro old written
    have same : pageWritten old page.toNat bytes = written := rfl
    refine ⟨fun used => ?used, fun free => ?free⟩
    case used => exact congrArg _ (receiveAsk_of_performed (code := 7) ask short rfl (performed.trans (if_pos used)))
    case free =>
      have unused : ¬ (old.state = .active ∨ old.state = .staged) := by
        rintro (used | used) <;> simp [used] at free
      rw [show (holdPlace true (heard s)).bank k.toNat = old from rfl, if_neg unused, setBank_held, same,
        Bank.complete_eq] at performed
      have state : written.1.state = old.state := pageWritten_state old page.toNat bytes
      rw [state] at performed
      refine congrArg _ ((receiveAsk_of_performed (code := 7) ask short rfl performed).trans ?_)
      rw [Answer.written]
      split <;> rfl

end Sys2Proof.Machine
end

section
/-!
PROOF. A block image that was read: what its attempt leaves on the bus, the checks in their order, the values taken and
the two ends of START (R116, R127, R199 to R203).
-/

namespace Sys2Proof.Machine

open Sys2Proof.Safety

/-! ## The transfer (R199) -/

theorem bitsOf_eq (x : Byte) : bitsOf x = (List.range 8).map (fun i => x.getMsbD i) := by
  have places : List.range 8 = [0, 1, 2, 3, 4, 5, 6, 7] := rfl
  simp [bitsOf, places, BitVec.getMsbD]

/-- A byte sent, acknowledged by the memory. -/
theorem sentByte_eq (x : Byte) : sentByte x true =
    ((List.range 8).map (fun i => x.getMsbD i)).map .stationBit ++ [.memoryBit false] := by
  rw [sentByte, bitsOf_eq]; rfl

/-- A byte read; the station acknowledges each but the last. -/
theorem readByte_eq (last : Bool) : readByte (!last) = fun x =>
    ((List.range 8).map (fun i => x.getMsbD i)).map .memoryBit ++ [.stationBit last] := by
  funext x
  rw [readByte, bitsOf_eq, Bool.not_not]

/-- The transfer of a block that was read, in the terms of a byte sent and a byte read. -/
theorem busItems_image (n : Fin 10) (bytes : Vector Byte 128) {send : Byte → List BusItem}
    {read : Bool → Byte → List BusItem} (sends : ∀ x, sentByte x true = send x)
    (reads : ∀ last, readByte (!last) = read last) : busItems (.image n bytes) =
      List.replicate n .releaseClock ++ .startCond :: send 0xA8 ++ send 0x00
        ++ .startCond :: send 0xA9 ++ (bytes.toList.take 127).flatMap (read false)
        ++ (bytes.toList.drop 127).flatMap (read true) ++ [.stopCond] := by
  have continued : readByte true = read false := reads false
  have last : readByte false = read true := reads true
  simp only [busItems, busOpening, sends, continued, last, List.append_assoc, List.cons_append]

/-- An attempt that read the block ends with a stop condition, both pins released. -/
theorem attempted_image (n : Fin 10) (bytes : Vector Byte 128) (b : StartBlock) :
    b.attempted (.image n bytes) = { b with
      attempts := b.attempts + 1, bus := busItems (.image n bytes), scl := true, sda := true } := by
  have last : (busItems (.image n bytes)).getLast? = some .stopCond := List.getLast?_concat
  rw [StartBlock.attempted, last]
  rfl

/-! ## The checks (R200) -/

theorem tagGood_iff {bs : List Byte} (long : 3 ≤ bs.length) : tagGood bs = true ↔ bs.take 3 = [0xC6, 0x1A, 1] := by
  obtain ⟨x, y, z, rest, rfl⟩ : ∃ x y z rest, bs = x :: y :: z :: rest := by
    match bs, long with
    | x :: y :: z :: rest, _ => exact ⟨x, y, z, rest, rfl⟩
  have high : field 0 2 (x :: y :: z :: rest) = x.toNat * 256 + y.toNat :=
    field_two (by simp only [List.length_cons]; omega)
  have version : field 2 1 (x :: y :: z :: rest) = z.toNat := field_one 2 _
  have byte {v w : Byte} (same : v.toNat = w.toNat) : v = w := BitVec.eq_of_toNat_eq same
  simp only [tagGood, high, version, Bool.and_eq_true, beq_iff_eq, List.take_succ_cons, List.take_zero,
    List.cons.injEq, and_true]
  refine ⟨fun ⟨tag, one⟩ => ⟨byte ?_, byte ?_, byte one⟩, fun ⟨first, second, one⟩ => by simp [first, second, one]⟩
  · change x.toNat = 198; omega
  · change y.toNat = 26; omega

theorem sumGood_iff (bs : List Byte) : sumGood bs = true ↔ (bs.map (fun x => x.toNat)).sum % 256 = 0 := by
  rw [sumGood, beq_iff_eq, List.sum_eq_foldl, List.foldl_map]

theorem isStation_false_iff (n : Nat) : isStation n = false ↔ n = 0 ∨ 63 ≤ n := by
  simp only [isStation, Bool.and_eq_false_iff, decide_eq_false_iff_not]
  omega

/-! ## The values taken (R116, R127, R201) -/

theorem judge_entries_length (own : Nat) (t : ListenTaking) (e : Option ListenEntry) :
    (t.judge own e).entries.length = t.entries.length + 1 := by
  unfold ListenTaking.judge
  split
  · simp
  · split <;> simp

/-- Each of the six entries of the block stands in the listen table. -/
theorem takeListen_length (own : Nat) (bs : List Byte) : (takeListen own bs).entries.length = 6 := by
  have grows (l : List (Taken (Option ListenEntry))) (t : ListenTaking) :
      (l.foldl (fun t e => t.judge own e.value) t).entries.length = t.entries.length + l.length := by
    induction l generalizing t with
    | nil => rfl
    | cons e l ih => rw [List.foldl_cons, ih, judge_entries_length, List.length_cons]; omega
  exact (grows _ _).trans (by simp [blockEntries])

theorem ofFn_getD_toList {α : Type} {n : Nat} {l : List α} (length : l.length = n) (d : α) :
    (Vector.ofFn (fun i : Fin n => l.getD i.val d)).toList = l := by
  refine List.ext_getElem (by simp [length]) fun i _ here => ?_
  simp [here]

/-- A state with an image read. -/
def imageRead (bs : List Byte) (s : State) : State := s.setStart { s.start with image := some bs }

/-- A state with the values, the listen table and bank 0 of an image taken. -/
def imageTaken (bs : List Byte) (s : State) : State := takeValues bs (imageRead bs s)

theorem imageTaken_start (bs : List Byte) (s : State) : (imageTaken bs s).start = { s.start with
    image := some bs, settings := some (takeSettings bs).value, clamped := min 255 (blockReplaced bs) } := by
  rw [imageTaken, takeValues, setBank_start]; rfl

theorem imageTaken_listen (bs : List Byte) (s : State) :
    (imageTaken bs s).pace.listen.toList = (takeListen s.own bs).entries := by
  rw [imageTaken, takeValues, setBank_pace]
  exact ofFn_getD_toList (takeListen_length _ _) _

theorem imageTaken_faults (bs : List Byte) (s : State) :
    (imageTaken bs s).pace.listenFaults = (takeListen s.own bs).faults := by
  rw [imageTaken, takeValues, setBank_pace]; rfl

theorem imageTaken_bank (bs : List Byte) (s : State) (j : Nat) :
    (imageTaken bs s).bank j = if j = 0 then imageBank bs else s.bank j := by
  rw [imageTaken, takeValues, bank_setBank]
  simp only [Nat.ofNat_pos, and_true]
  rfl

/-! ## The ends of START (R200, R202, R203) -/

/-- The checks in their order: tag, sum, straps (R200). -/
theorem judgeBlock_eq {bs : List Byte} (long : 3 ≤ bs.length) (s : State) : judgeBlock bs s =
    if bs.take 3 ≠ [0xC6, 0x1A, 1] then toHeld .badTag (imageRead bs s)
    else if (bs.map (fun x => x.toNat)).sum % 256 ≠ 0 then toHeld .badSum (imageRead bs s)
    else if s.own = 0 ∨ 63 ≤ s.own then toHeld .straps (imageTaken bs s) else toIdle (imageTaken bs s) := by
  have tag := tagGood_iff long
  have sum := sumGood_iff bs
  have straps := isStation_false_iff s.own
  rw [judgeBlock]
  cases tagged : tagGood bs with
  | false => exact (if_pos (fun good => Bool.false_ne_true (tagged.symm.trans (tag.mpr good)))).symm
  | true =>
    rw [if_neg (not_not_intro (tag.mp tagged))]
    cases summed : sumGood bs with
    | false => exact (if_pos (fun good => Bool.false_ne_true (summed.symm.trans (sum.mpr good)))).symm
    | true =>
      rw [if_neg (not_not_intro (sum.mp summed))]
      cases numbered : isStation s.own with
      | false => exact (if_pos (straps.mp numbered)).symm
      | true => exact (if_neg (fun none => Bool.false_ne_true ((straps.mpr none).symm.trans numbered))).symm

/-- IDLE before the pace slot is refreshed (R202). -/
def idleStart (u : State) : State :=
  { u with
    start := { u.start with phase := .over, reason := .none }, station := u.station.enter .idle
    ply := { u.ply with isOn := true, seenIdle := false, idle := 0 }
    twist := { u.twist.transfer 0 0 with ownOffer := u.cfg.ownLimit } }

theorem toIdle_eq (u : State) : toIdle u = { idleStart u with
    ply := { (idleStart u).ply with paceWaiting := some ⟨buildReport (idleStart u), 0⟩ }
    pace := { u.pace with period := u.cfg.pacePeriod } } :=
  refreshPace_of_reports (s := idleStart u) rfl

/-- The report of IDLE is that of the state it stands in (R129). -/
theorem toIdle_paceWaiting (u : State) : (toIdle u).ply.paceWaiting = some ⟨buildReport (toIdle u), 0⟩ := by
  rw [toIdle_eq]; rfl

/-- What START leaves as it stands when an image ends it, and the drive and the line interface as they then are. -/
structure ImageEnds (bs : List Byte) (s t : State) : Prop where
  start : ∃ reason settings clamped, t.start = { s.start with
    phase := .over, reason := reason, settings := settings, clamped := clamped, image := some bs }
  den : t.station.den = false
  isOn : t.ply.isOn = isStation s.own
  seenIdle : t.ply.seenIdle = false
  length : t.length = s.length
  marks : t.marks = s.marks
  knot : t.knot = s.knot
  map : t.map = s.map
  former : t.former = s.former
  banks : ∀ j, 1 ≤ j → t.bank j = s.bank j

theorem toHeld_imageRead_ends (bs : List Byte) (s : State) (r : StartReason) :
    ImageEnds bs s (toHeld r (imageRead bs s)) :=
  ⟨⟨r, _, _, rfl⟩, rfl, rfl, rfl, rfl, rfl, rfl, rfl, rfl, fun _ _ => rfl⟩

theorem imageTaken_own (bs : List Byte) (s : State) : (imageTaken bs s).own = s.own := by
  rw [State.own, imageTaken_start, State.own]

theorem imageTaken_bank_of_pos {j : Nat} (pos : 1 ≤ j) (bs : List Byte) (s : State) :
    (imageTaken bs s).bank j = s.bank j := by
  rw [imageTaken_bank, if_neg (Nat.one_le_iff_ne_zero.mp pos)]

theorem toHeld_imageTaken_ends (bs : List Byte) (s : State) (r : StartReason) :
    ImageEnds bs s (toHeld r (imageTaken bs s)) where
  start := ⟨r, _, _, congrArg (fun b => { b with phase := .over, reason := r }) (imageTaken_start bs s)⟩
  den := rfl
  isOn := congrArg isStation (imageTaken_own bs s)
  seenIdle := rfl
  length := rfl
  marks := rfl
  knot := rfl
  map := rfl
  former := rfl
  banks _ pos := imageTaken_bank_of_pos pos bs s

theorem toIdle_imageTaken_ends {bs : List Byte} {s : State} (station : isStation s.own = true) :
    ImageEnds bs s (toIdle (imageTaken bs s)) := by
  rw [toIdle_eq]
  exact {
    start := ⟨.none, _, _, congrArg (fun b => { b with phase := .over, reason := .none }) (imageTaken_start bs s)⟩
    den := rfl
    isOn := station.symm
    seenIdle := rfl
    length := rfl
    marks := rfl
    knot := rfl
    map := rfl
    former := rfl
    banks := fun _ pos => imageTaken_bank_of_pos pos bs s }

theorem judgeBlock_ends {bs : List Byte} (long : 3 ≤ bs.length) (s : State) : ImageEnds bs s (judgeBlock bs s) := by
  rw [judgeBlock_eq long]
  split_ifs with _ _ straps
  · exact toHeld_imageRead_ends bs s _
  · exact toHeld_imageRead_ends bs s _
  · exact toHeld_imageTaken_ends bs s _
  · exact toIdle_imageTaken_ends (Bool.eq_true_of_not_eq_false fun none => straps ((isStation_false_iff _).mp none))

/-- The block is read, the checks not yet made. -/
def blockRead (n : Fin 10) (bytes : Vector Byte 128) (s : State) : State :=
  s.setStart (s.start.attempted (.image n bytes))

/-- Settles O6: each outcome of the checks is an end of START, of the state as read or with the values taken. -/
theorem blockImageIsJudgedInOrder : Obligations.BlockImageIsJudgedInOrder := by
  intro s k b attempting bits send read
  have long : 3 ≤ b.toList.length := by simp
  have own : (blockRead k b s).own = s.own := rfl
  have block : (blockRead k b s).start = _ := attempted_image k b s.start
  have attempted : exec (.blockReadAttempt (.image k b)) s = .next (judgeBlock b.toList (blockRead k b s)) :=
    congrArg _ (if_pos attempting)
  obtain ⟨⟨reason, settings, clamped, start⟩, den, isOn, seenIdle, length, marks, knot, map, former, banks⟩ :=
    judgeBlock_ends long (blockRead k b s)
  rw [block] at start
  refine ⟨_, attempted, by rw [start], by rw [start], by rw [start], by rw [start], by rw [start],
    by rw [start]; exact busItems_image k b sentByte_eq readByte_eq, by rw [State.own, start]; rfl,
    den, isOn, seenIdle, length, marks, knot, map, former, banks, ?_⟩
  have taken := imageTaken_start b.toList (blockRead k b s)
  rw [judgeBlock_eq long, own]
  split_ifs with tag sum straps
  · exact ⟨rfl, rfl, rfl, rfl, rfl, rfl, rfl⟩
  · exact ⟨rfl, rfl, rfl, rfl, rfl, rfl, rfl⟩
  · exact ⟨congrArg (·.settings) taken, imageTaken_bank _ _ _, congrArg (·.clamped) taken, imageTaken_listen _ _,
      imageTaken_faults _ _, rfl, rfl, rfl⟩
  · refine ⟨?settings, ?bank, ?clamped, ?listen, ?faults, ?state, ?reason, ?isOn, ?offer, ?capstan, ?spindle, ?link,
      ?dck, ?dda, ?dlt, toIdle_paceWaiting _⟩
    all_goals rw [toIdle_eq]
    case settings => exact congrArg (·.settings) taken
    case bank => exact imageTaken_bank _ _ _
    case clamped => exact congrArg (·.clamped) taken
    case listen => exact imageTaken_listen _ _
    case faults => exact imageTaken_faults _ _
    all_goals rfl

end Sys2Proof.Machine
end

section
/-!
PROOF. The bank switch field by field, with no entry of the run map open: the banks, the CHANGE entry with its hand-off,
and what each kind takes (R16, R35, R36, R42, R64, R121, R124).
-/

namespace Sys2Proof.Machine

open Sys2Proof.Safety

/-! ## The hand-off of an entry (R80, R185) -/

/-- A HANDOFF that finds no room is itself dropped, and nobody is told: queuing it touches the line interface alone. -/
theorem enqueue_handoff (h : HandoffCopy) (s : State) :
    enqueue (.handoff h) s = s.setPly (enqueue (.handoff h) s).ply := by
  have light : (TxBody.handoff h).urgent = false := rfl
  simp only [enqueue, light, reportDrop]
  split <;> rfl

theorem handOff_eq_setPly (e : MapEntry) (s : State) : handOff e s = s.setPly (handOff e s).ply :=
  foldl_keeps_of (P := fun t => t = s.setPly t.ply)
    (fun t p only => (enqueue_handoff (handoffOf s.own p.number e) t).trans
      (congrArg (fun u => u.setPly (enqueue (.handoff (handoffOf s.own p.number e)) t).ply) only)) _ rfl

/-- Frames for which there is room stand in the queue in their order. -/
theorem foldl_enqueue_of_room (bodies : List TxBody) (s : State)
    (room : s.ply.queue.length + bodies.length ≤ s.ply.room) :
    bodies.foldl (fun t b => enqueue b t) s = s.setPly { s.ply with queue := s.ply.queue ++ bodies.map fresh } := by
  induction bodies generalizing s with
  | nil => rw [List.map_nil, List.append_nil, List.foldl_nil]; rfl
  | cons b bodies ih =>
    rw [List.length_cons] at room
    rw [List.foldl_cons, enqueue_of_room b (by omega), ih]
    · exact congrArg (fun q => s.setPly { s.ply with queue := q }) (List.append_assoc _ [fresh b] (bodies.map fresh))
    · change (s.ply.queue ++ [fresh b]).length + _ ≤ s.ply.room
      rw [List.length_append, List.length_singleton]
      omega

/-- The frames of a hand-off, in the order of the listen table. -/
def handOffFrames (e : MapEntry) (s : State) : List QFrame :=
  (s.peers.filter (fun p => p.role == .take)).map (fun p => fresh (.handoff (handoffOf s.own p.number e)))

theorem handOff_of_room (e : MapEntry) (s : State)
    (room : s.ply.queue.length + (handOffFrames e s).length ≤ s.ply.room) :
    handOff e s = s.setPly { s.ply with queue := s.ply.queue ++ handOffFrames e s } := by
  rw [handOffFrames, List.length_map] at room
  have queued := foldl_enqueue_of_room ((s.peers.filter (fun p => p.role == .take)).map
    (fun p => .handoff (handoffOf s.own p.number e))) s (by rwa [List.length_map])
  rw [List.foldl_map, List.map_map] at queued
  exact queued

/-! ## The banks of a switch (R124) -/

theorem switchStates_bank {s : State} {k : Nat} (hk : k < 4) (one : bankCount .active s.banks ≤ 1)
    (other : (s.bank k).state ≠ .active) (j : Nat) : (switchStates k s).bank j =
      if j = k then { s.bank k with state := .active }
      else if (s.bank j).state = .active then { s.bank j with state := .loaded } else s.bank j := by
  rw [switchStates_eq, freedBanks_eq]
  split
  · rename_i same
    rw [same, banked_bank hk, freedIn_bank_of_ne other]
  · rename_i differs
    rw [banked_bank_other differs, freedIn_bank (.inl rfl) one]

theorem switchStates_activeBank {s : State} {k : Nat} (hk : k < 4) (one : bankCount .active s.banks ≤ 1) :
    (switchStates k s).activeBank = some k :=
  banked_activeBank hk (freedBanks_inactive one)

/-- After a replacement of banks alone another bank replaced is a replacement of banks alone. -/
theorem setBank_eq_setBanks {s t : State} {banks : Vector Bank 4} (shape : t = s.setBanks banks) (k : Nat) (b : Bank) :
    t.setBank k b = s.setBanks (t.setBank k b).banks := by
  subst shape
  unfold State.setBank
  split <;> rfl

theorem freedIn_eq_setBanks (x : BankState) (s : State) : freedIn x s = s.setBanks (freedIn x s).banks := by
  unfold freedIn
  split
  · exact setBank_eq_setBanks (banks := s.banks) rfl _ _
  · rfl

/-- A switch of the banks leaves the rest of the state. -/
theorem switchStates_eq_setBanks (k : Nat) (s : State) : switchStates k s = s.setBanks (switchStates k s).banks :=
  setBank_eq_setBanks (freedIn_eq_setBanks .active s) k _

/-! ## What each kind takes (R35, R36, R42, R64) -/

/-- Twist regulation after a switch from target `old` to target `new` (R42). -/
def switchedTwist (old new : Nat) (s : State) : Twist :=
  if s.cfg.kind = .laying then
    let trim := if new = old then s.twist.trim else 0
    let aimed : Twist := { s.twist.discardWindow.endRun.clearResults with
      trim, eff10 := some (aimOf new s), ownOffer := offerOf s.cfg.ownLimit s.cfg.smax (aimOf new s) trim }
    if s.station.state.driven then aimed.openWindow s.pos else aimed
  else s.twist

/-- Inspection after a switch to a page of so many sections (R64). -/
def switchedKnot (sections : Nat) (s : State) : Knot :=
  if s.cfg.kind = .netting then { s.knot with
    knotRun := 0, knotMajor := false, meshRun := 0, firstRef := none, prevAdvance := none
    counters := Vector.ofFn (fun i : Fin 8 => if i.val < sections then s.knot.counters.get i else 0) }
  else s.knot

/-- The marks after a switch to an interval (R16). -/
def switchedMarks (interval : Nat) (s : State) : Marks :=
  if s.cfg.forming = true then s.marks else s.marks.switch interval s.pos

theorem switchTwist_eq {s : State} (closed : s.cfg.kind = .plain ∨ AllClosed s.map.entries) (old : Nat) :
    (switchTwist old s).1 = s.setTwist (switchedTwist old s.twistPage.target10 s) := by
  rw [switchTwist, switchedTwist]
  by_cases kind : s.cfg.kind = .laying
  · have closed : AllClosed s.map.entries := closed.resolve_left (by rw [kind]; decide)
    have ended (t : Twist) : closeEntry .twist (s.setTwist t) = (s.setTwist t, none) :=
      closed.closeEntry (s := s.setTwist t) .twist
    have aimed (t : Twist) := retarget_of_laying (s := s.setTwist t) kind
    have opened (t : Twist) := openWindow_of_laying (s := s.setTwist t) kind
    have again (t u : Twist) : (s.setTwist t).setTwist u = s.setTwist u := rfl
    rw [if_pos ((isLaying_iff s).mpr kind), if_pos kind]
    simp only [endTwistRun, again, ended, aimed]
    cases driven : s.station.state.driven with
    | false => rfl
    | true => exact opened _
  · rw [if_neg (mt (isLaying_iff s).mp kind), if_neg kind]
    rfl

theorem switchKnot_eq {s : State} (closed : s.cfg.kind = .plain ∨ AllClosed s.map.entries) :
    (switchKnot s).1 = s.setKnot (switchedKnot s.knotPage.sections s) := by
  rw [switchKnot, switchedKnot]
  by_cases kind : s.cfg.kind = .netting
  · have closed : AllClosed s.map.entries := closed.resolve_left (by rw [kind]; decide)
    have ended (k : Knot) (e : EntryKind) : closeEntry e (s.setKnot k) = (s.setKnot k, none) :=
      closed.closeEntry (s := s.setKnot k) e
    rw [if_pos ((isNetting_iff s).mpr kind), if_pos kind]
    simp only [closeKnotEntries, ended]
  · rw [if_neg (mt (isNetting_iff s).mp kind), if_neg kind]
    rfl

/-! ## The switch (R124) -/

/-- The entry that a switch logs, as the map holds it. -/
def changeAt (position : Nat) : MapEntry := { closedPoint .change position with lastLocal := false }

/-- The banks switched and the CHANGE entry in the map. -/
def switchLogged (k position : Nat) (s : State) : State :=
  (switchStates k s).setMap { s.map with entries := insertEntry (changeAt position) s.map.entries }

theorem changeLogged_eq {s : State} (room : s.map.entries.length < Config.mapCapacity) (k position : Nat) :
    changeLogged k position s = handOff (changeAt position) (switchLogged k position s) := by
  rw [changeLogged, offerRaw_of_room rfl (by rwa [switchStates_map]), switchStates_map]
  rfl

/-- What a switch takes after its CHANGE is logged, with no entry open or on a station that opens none. -/
theorem switchBank_of_logged {k position : Nat} {s u : State} (logged : changeLogged k position s = u)
    (closed : u.cfg.kind = .plain ∨ AllClosed u.map.entries) :
    (switchBank k position s).1 = { u with
      twist := switchedTwist s.twistPage.target10 u.twistPage.target10 u
      knot := switchedKnot u.knotPage.sections u
      marks := switchedMarks u.activePackagePage.markInterval u } := by
  have twisted := switchTwist_eq closed s.twistPage.target10
  have knotted := switchKnot_eq (s := u.setTwist (switchedTwist s.twistPage.target10 u.twistPage.target10 u)) closed
  rw [changeLogged] at logged
  simp only [switchBank, logged, twisted, knotted, switchedMarks]
  by_cases forms : u.cfg.forming = true
  · rw [if_pos forms]; exact if_pos forms
  · rw [if_neg forms]; exact if_neg forms

/-- The switch field by field: what it reads of the state it reads as of before the switch, but for the new pages. -/
theorem switchBank_eq {s : State} {k : Nat} (hk : k < 4) (one : bankCount .active s.banks ≤ 1)
    (other : (s.bank k).state ≠ .active) (room : s.map.entries.length < Config.mapCapacity)
    (closed : s.cfg.kind = .plain ∨ AllClosed s.map.entries) (position : Nat) :
    (switchBank k position s).1 = { s with
      banks := (switchStates k s).banks
      map := { s.map with entries := insertEntry (changeAt position) s.map.entries }
      ply := (handOff (changeAt position) (switchLogged k position s)).ply
      twist := switchedTwist s.twistPage.target10 ((s.bank k).twist.getD .absent).target10 s
      knot := switchedKnot ((s.bank k).knot.getD .absent).sections s
      marks := switchedMarks (s.packagePage k).markInterval s } := by
  obtain ⟨u, logged⟩ : ∃ u, changeLogged k position s = u := ⟨_, rfl⟩
  have shape : u = { s with
      banks := (switchStates k s).banks
      map := { s.map with entries := insertEntry (changeAt position) s.map.entries }
      ply := (handOff (changeAt position) (switchLogged k position s)).ply } := by
    rw [← logged, changeLogged_eq room, handOff_eq_setPly]
    exact congrArg (fun t : State => (t.setMap _).setPly _) (switchStates_eq_setBanks k s)
  have active : u.activeBank = some k := by
    rw [shape]; exact switchStates_activeBank hk one
  have bank : u.bank k = { s.bank k with state := .active } := by
    rw [shape]; exact (switchStates_bank hk one other k).trans (if_pos rfl)
  have still : u.cfg.kind = .plain ∨ AllClosed u.map.entries :=
    closed.imp (fun plain => by rw [shape]; exact plain)
      (fun shut => by rw [← logged]; exact changeLogged_closed shut k position)
  have twistPage : u.twistPage = (s.bank k).twist.getD .absent := by rw [State.twistPage, active]; simp only [bank]
  have knotPage : u.knotPage = (s.bank k).knot.getD .absent := by rw [State.knotPage, active]; simp only [bank]
  have packagePage : u.activePackagePage = s.packagePage k := by
    rw [State.activePackagePage, active]; exact packagePage_congr (by rw [bank])
  rw [switchBank_of_logged logged still, twistPage, knotPage, packagePage, shape]
  rfl

end Sys2Proof.Machine
end

section
/-!
PROOF. CHANGE: the bank staged, the switch made at once on a PLAIN station that forms no packages, and the refusals
(R121, R124).
-/

namespace Sys2Proof.Machine

open Sys2Proof.Safety

/-! ## The parts of a switch as the chapters give them (R16, R35, R36, R42, R64) -/

theorem Marks.switch_eq (interval pos : Nat) (m : Marks) : m.switch interval pos =
    if interval = 0 then { m with interval := 0, next := none }
    else if m.interval = 0 then { m with
      interval := interval
      next := some ((pos / (interval * 1000) + 1) * (interval * 1000))
      counter := (pos / (interval * 1000) + 1) * interval % 100000 }
    else { m with interval := interval } := by
  have metres (n : Nat) : n * (interval * 1000) / 1000 = n * interval := by
    rw [← Nat.mul_assoc, Nat.mul_div_cancel _ (by decide)]
  simp only [Marks.switch, metres]

theorem switchedTwist_of_not_laying {s : State} (other : s.cfg.kind ≠ .laying) (old new : Nat) :
    switchedTwist old new s = s.twist := if_neg other

theorem switchedKnot_of_not_netting {s : State} (other : s.cfg.kind ≠ .netting) (sections : Nat) :
    switchedKnot sections s = s.knot := if_neg other

/-- Twist regulation of a LAYING station starts again but for its trim, which another target10 takes too. -/
theorem switchedTwist_of_laying {s : State} (kind : s.cfg.kind = .laying) (old new : Nat) :
    let t := switchedTwist old new s
    t.trim = (if new = old then s.twist.trim else 0) ∧
    t.lastT10 = none ∧ t.lastD10 = 0 ∧ t.lastE = none ∧ t.lastClass = none ∧
    t.windowCount = 0 ∧ t.offRun = 0 ∧ t.offMajor = false ∧ t.majorRun = 0 ∧
    t.eff10 = some (aimOf new s) ∧
    t.ownOffer = min s.cfg.ownLimit (s.cfg.smax * 100000 / (aimOf new s * (1000 + t.trim).toNat)) ∧
    t.pulses = 0 ∧ t.width = 0 ∧ t.windowOpen = s.station.state.driven ∧
    (s.station.state.driven = true → t.windowStart = s.pos) ∧ t.sCmd = s.twist.sCmd := by
  intro t
  have taken : t = _ := if_pos kind
  rw [taken]
  cases driven : s.station.state.driven with
  | false => exact ⟨rfl, rfl, rfl, rfl, rfl, rfl, rfl, rfl, rfl, rfl, rfl, rfl, rfl, rfl, nofun, rfl⟩
  | true => exact ⟨rfl, rfl, rfl, rfl, rfl, rfl, rfl, rfl, rfl, rfl, rfl, rfl, rfl, rfl, fun _ => rfl, rfl⟩

/-! ## Staging (R121) -/

theorem bankCounts_le_one {s : State} (lawful : BankLawful s) :
    bankCount .active s.banks ≤ 1 ∧ bankCount .staged s.banks ≤ 1 := by
  obtain ⟨-, active, staged⟩ := lawful
  have most : flag s.inRun ≤ 1 := by cases s.inRun <;> decide
  exact ⟨active.le.trans most, staged.trans most⟩

/-- A station that takes no switch at once stages the bank, the one staged before LOADED again. -/
theorem stageBank_of_staging {s : State} {k : Nat} (staging : ¬ (s.cfg.kind = .plain ∧ s.cfg.forming = false)) :
    stageBank k s = (freedIn .staged s).setBank k { (freedIn .staged s).bank k with state := .staged } := by
  have shape := freedIn_eq_setBanks .staged s
  rw [stageBank_eq, if_neg]
  rw [State.forming, shape]
  exact staging

theorem stageBank_eq_setBanks {s : State} {k : Nat} (staging : ¬ (s.cfg.kind = .plain ∧ s.cfg.forming = false)) :
    stageBank k s = s.setBanks (stageBank k s).banks := by
  rw [stageBank_of_staging staging]
  exact setBank_eq_setBanks (freedIn_eq_setBanks .staged s) k _

theorem stageBank_bank {s : State} {k : Nat} (one : bankCount .staged s.banks ≤ 1)
    (loaded : (s.bank k).state = .loaded) (staging : ¬ (s.cfg.kind = .plain ∧ s.cfg.forming = false)) (j : Nat) :
    (stageBank k s).bank j = if j = k then { s.bank k with state := .staged }
      else if (s.bank j).state = .staged then { s.bank j with state := .loaded } else s.bank j := by
  rw [stageBank_of_staging staging, bank_setBank, freedIn_bank_of_ne (by rw [loaded]; decide),
    freedIn_bank (.inr rfl) one]
  simp only [lt_of_loaded loaded, and_true]

/-! ## The request (R121, R191) -/

theorem doChange_of_idle {k : Byte} (range : k.toNat ≤ 3) {s : State} (idle : s.inRun = false) :
    doChange [k] s = refuse .state s := by
  rw [doChange, if_neg (by omega), idle]; rfl

/-- In a run CHANGE goes by the state of the bank. -/
theorem doChange_of_run {k : Byte} (range : k.toNat ≤ 3) {s : State} (run : s.inRun = true) {x : BankState}
    (state : (s.bank k.toNat).state = x) : doChange [k] s = match (generalizing := false) x with
      | .empty => refuse .bankEmpty s
      | .active => refuse .bankInUse s
      | .staged => (s, .done 0 [])
      | .loaded => (stageBank k.toNat s, .done 0 []) := by
  rw [doChange, if_neg (by omega), run, state]; rfl

/-- CHANGE as it is answered, from what it does to the state in which the place of the ANSWER is held. -/
theorem askChange_of_done {h : AskHead} {s u : State} {k : Byte} (ask : asked h s) (service : serving s) {a : Answer}
    (final : a.restart = false)
    (done : doChange [k] (holdPlace true (heard s)) = (holdPlace true (heard u), a)) :
    exec (.askChange ⟨h, [k]⟩) s =
      .next (answered h 9 (BitVec.ofNat 8 a.result) (BitVec.ofNat 8 a.detail) a.data u) :=
  congrArg _ (receiveAsk_of_performed (code := 9) ask (Nat.le_of_ble_eq_true rfl : [k].length ≤ 22) final
    ((performAsk_of_serving (s := holdPlace true (heard s)) service 9 [k]).trans done))

/-- The frames that hand a CHANGE off: MINOR, of count 1, from this station (R80). -/
theorem handOffFrames_change (position : Nat) (s : State) : handOffFrames (changeAt position) s =
    (s.pace.listen.toList.filter (fun p => p.status == .peer && p.role == .take)).map (fun p => fresh (.handoff {
      dest := p.number, kind := .change, origin := s.own, severity := .minor, count := 1
      extent := 0, entryEnd := position, travel := 0 })) := by
  have takers : s.peers.filter (fun p => p.role == .take) =
      s.pace.listen.toList.filter (fun p => p.status == .peer && p.role == .take) := by
    rw [State.peers, List.filter_filter]
    exact List.filter_congr fun p _ => Bool.and_comm _ _
  rw [handOffFrames, takers]
  rfl

/-- A PLAIN station that forms no packages with its banks switched to one of a mark interval: the CHANGE entry is in
the map, its hand-off in the queue. -/
def changedAtOnce (banks : Vector Bank 4) (interval : Nat) (s : State) : State :=
  { s with
    banks := banks
    map := { s.map with entries := insertEntry (changeAt s.pos) s.map.entries }
    ply := { s.ply with queue := s.ply.queue ++ handOffFrames (changeAt s.pos) s }
    marks := s.marks.switch interval s.pos }

theorem stageBank_of_plain {s : State} {k : Nat} (lawful : BankLawful s) (loaded : (s.bank k).state = .loaded)
    (kind : s.cfg.kind = .plain) (plain : s.cfg.forming = false) (unstaged : s.stagedBank = none)
    (room : s.map.entries.length < Config.mapCapacity)
    (places : s.ply.queue.length + (handOffFrames (changeAt s.pos) s).length ≤ s.ply.room) :
    stageBank k s = changedAtOnce (switchStates k s).banks (s.packagePage k).markInterval s := by
  obtain ⟨one, -⟩ := bankCounts_le_one lawful
  have freed : freedIn .staged s = s := by rw [freedIn, ← State.stagedBank, unstaged]
  have logged : switchLogged k s.pos s = { s with
      banks := (switchStates k s).banks
      map := { s.map with entries := insertEntry (changeAt s.pos) s.map.entries } } :=
    congrArg (fun t : State => t.setMap _) (switchStates_eq_setBanks k s)
  have handed : (handOff (changeAt s.pos) (switchLogged k s.pos s)).ply =
      { s.ply with queue := s.ply.queue ++ handOffFrames (changeAt s.pos) s } := by
    rw [logged, handOff_of_room (room := by exact places)]
    rfl
  rw [stageBank_eq, freed, if_pos ⟨kind, plain⟩,
    switchBank_eq (lt_of_loaded loaded) one (by rw [loaded]; decide) room (.inl kind), handed,
    switchedTwist_of_not_laying (by rw [kind]; decide), switchedKnot_of_not_netting (by rw [kind]; decide), switchedMarks,
    if_neg (by rw [plain]; decide)]
  rfl

/-- Settles O45: a request stages by `stageBank_bank` or switches by `stageBank_of_plain`; a switch is `switchBank_eq`. -/
theorem changeRequestStagesALoadedBank : Obligations.ChangeRequestStagesALoadedBank := by
  intro s h k range interval active marks change
  have hk : k.toNat < 4 := by omega
  have switched : s.marks.switch interval s.pos = marks := Marks.switch_eq interval s.pos s.marks
  refine ⟨fun ask service => ?request, fun position lawful run room shut state => ?switch⟩
  case request =>
    have idles := doChange_of_idle range (s := holdPlace true (heard s))
    have runs {x : BankState} := doChange_of_run range (s := holdPlace true (heard s)) (x := x)
    refine ⟨fun idle => ?idle, fun run empty => ?empty, fun run used => ?active, fun run staged => ?staged,
      fun run lawful loaded staging => ?stage, fun run lawful loaded kind plain unstaged room => ?atOnce⟩
    case idle => exact askChange_of_done (a := .refused .state) ask service rfl (idles idle)
    case empty => exact askChange_of_done (a := .refused .bankEmpty) ask service rfl (runs run empty)
    case active => exact askChange_of_done (a := .refused .bankInUse) ask service rfl (runs run used)
    case staged => exact askChange_of_done (a := .done 0 []) ask service rfl (runs run staged)
    case stage =>
      have staging : ¬ (s.cfg.kind = .plain ∧ s.cfg.forming = false) := fun ⟨kind, plain⟩ =>
        staging.elim (fun other => other kind) (fun forms => Bool.false_ne_true (plain.symm.trans forms))
      have banks := stageBank_bank (s := holdPlace true (heard s)) (bankCounts_le_one lawful).2 loaded staging
      have staged := stageBank_eq_setBanks (s := holdPlace true (heard s)) (k := k.toNat) staging
      exact ⟨_, askChange_of_done (a := .done 0 [])
        (u := s.setBanks (stageBank k.toNat (holdPlace true (heard s))).banks) ask service rfl
        ((runs run loaded).trans (congrArg (·, _) staged)), (banks _).trans (if_pos rfl),
        fun j other => (banks j).trans (if_neg other), rfl, rfl, rfl, rfl, rfl, rfl, rfl⟩
    case atOnce =>
      intro takers places
      have frames := handOffFrames_change s.pos s
      have count : (handOffFrames (changeAt s.pos) s).length = takers.length := by rw [frames, List.length_map]
      have same := stageBank_of_plain (s := holdPlace true (heard s)) lawful loaded kind plain unstaged room
        (show _ + (handOffFrames (changeAt s.pos) s).length ≤ 7 from count ▸ places)
      have banks := switchStates_bank (s := holdPlace true (heard s)) hk (bankCounts_le_one lawful).1
        (by rw [show ((holdPlace true (heard s)).bank k.toNat).state = .loaded from loaded]; decide)
      refine ⟨_, askChange_of_done (a := .done 0 [])
        (u := changedAtOnce (switchStates k.toNat (holdPlace true (heard s))).banks interval s) ask service rfl
        ((runs run loaded).trans (congrArg (·, _) same)), ⟨(banks _).trans (if_pos rfl),
          fun j other => (banks j).trans (if_neg other)⟩, switched, rfl, ?_, rfl, rfl, rfl, rfl, rfl, rfl⟩
      rw [← frames]
      rfl
  case switch =>
    obtain ⟨one, -⟩ := bankCounts_le_one lawful
    have other : (s.bank k.toNat).state ≠ .active := by obtain here | here := state <;> rw [here] <;> decide
    have banks := switchStates_bank hk one other
    intro t
    have shape : t = _ := switchBank_eq hk one other room (.inr shut) position
    rw [shape]
    exact ⟨⟨(banks _).trans (if_pos rfl), fun j differs => (banks j).trans (if_neg differs)⟩, rfl,
      congrArg (fun m => if s.cfg.forming = true then s.marks else m) switched,
      fun kind => switchedTwist_of_not_laying kind _ _, fun kind => switchedTwist_of_laying kind _ _,
      fun kind => switchedKnot_of_not_netting kind _, fun kind => if_pos kind, rfl, rfl, rfl, rfl⟩

end Sys2Proof.Machine
end

section
/-!
PROOF. The payloads of PACE and HANDOFF read back: a field's bytes spell its value, and each field stands at its offset
(R177 to R179).
-/

namespace Sys2Proof.Machine

open Sys2Proof.Safety

/-! ## A field and its bytes (R177) -/

@[simp] theorem be_length (n v : Nat) : (be n v).length = n := by
  induction n with
  | zero => rfl
  | succ n ih => rw [be, List.length_cons, ih]

@[simp] theorem byte_length (v : Nat) : (byte v).length = 1 := be_length 1 v

@[simp] theorem beInt_length (n : Nat) (v : Int) : (beInt n v).length = n := be_length n _

theorem unbe_cons (b : Byte) (bs : List Byte) : unbe (b :: bs) = b.toNat * 256 ^ bs.length + unbe bs := by
  have carried (acc : Nat) : bs.foldl (fun acc b => acc * 256 + b.toNat) acc = acc * 256 ^ bs.length + unbe bs := by
    induction bs generalizing acc with
    | nil => simp [unbe]
    | cons c cs ih =>
      have first : unbe (c :: cs) = c.toNat * 256 ^ cs.length + unbe cs := by
        simpa [unbe] using ih c.toNat
      rw [List.foldl_cons, ih, first, List.length_cons]
      ring
  rw [unbe, List.foldl_cons, carried, Nat.zero_mul, Nat.zero_add]

theorem unbe_be (n v : Nat) : unbe (be n v) = v % 256 ^ n := by
  induction n with
  | zero => rw [pow_zero, Nat.mod_one]; rfl
  | succ n ih =>
    have split : v % 256 ^ (n + 1) = v % 256 ^ n + 256 ^ n * (v / 256 ^ n % 256) := by rw [pow_succ, Nat.mod_mul]
    rw [be, unbe_cons, ih, be_length, BitVec.toNat_ofNat, split, Nat.add_comm, Nat.mul_comm]

theorem unbe_be_of_lt {n v : Nat} (fits : v < 256 ^ n) : unbe (be n v) = v := by
  rw [unbe_be, Nat.mod_eq_of_lt fits]

/-- Two's complement reads back within its range. -/
theorem unbeInt_beInt {n : Nat} {v : Int} (low : -(256 ^ n : Int) ≤ 2 * v) (high : 2 * v < (256 ^ n : Int)) :
    unbeInt (beInt n v) = v := by
  have spelled : (unbe (beInt n v) : Int) = v % 256 ^ n := by
    have nonneg : 0 ≤ v % (256 ^ n : Int) := Int.emod_nonneg _ (by positivity)
    have below : (v % (256 ^ n : Int)).toNat < 256 ^ n := by
      have := Int.emod_lt_of_pos v (show (0 : Int) < 256 ^ n by positivity)
      zify
      rwa [Int.toNat_of_nonneg nonneg]
    rw [beInt, unbe_be_of_lt below, Int.toNat_of_nonneg nonneg]
  rw [unbeInt, beInt_length]
  by_cases neg : v < 0
  · have wrapped : v % (256 ^ n : Int) = v + 256 ^ n := by
      rw [← Int.add_emod_right]
      exact Int.emod_eq_of_lt (by omega) (by omega)
    rw [if_neg (by zify; omega), spelled, wrapped, add_sub_cancel_right]
  · have same : v % (256 ^ n : Int) = v := Int.emod_eq_of_lt (by omega) (by omega)
    rw [if_pos (by zify; omega), spelled, same]

/-! ## A field at its offset (R178, R179) -/

/-- A field beyond the first of two runs of bytes. -/
theorem slice_append_skip {off : Nat} {a : List Byte} (beyond : a.length ≤ off) (len : Nat) (b : List Byte) :
    slice off len (a ++ b) = slice (off - a.length) len b := by
  rw [slice, slice, List.drop_append, List.drop_eq_nil_of_le beyond, List.nil_append]

/-- The first of two runs of bytes. -/
theorem slice_append_head {len : Nat} {a : List Byte} (length : len = a.length) (b : List Byte) :
    slice 0 len (a ++ b) = a := by
  rw [slice, List.drop_zero, length, List.take_left]

theorem slice_self {len : Nat} {a : List Byte} (length : len = a.length) : slice 0 len a = a := by
  rw [slice, List.drop_zero, length, List.take_length]

/-! ## The two payloads -/

theorem PaceReport.payload_length (r : PaceReport) : r.payload.length = 24 := by simp [PaceReport.payload]

theorem reportedState_code {st : StationState} (reports : st.reports = true) :
    Code.reportedState (Code.stationState st) = some st := by
  cases st with
  | start | held => cases reports
  | idle | ready | run | easing | stopped => rfl

theorem readPace_payload {r : PaceReport} (fits : reportFits r) : readPace r.payload = some r := by
  obtain ⟨reports, bank, service, serviceOrigin, first, firstOrigin, own, feed, take, run, d10Low, d10High, windows,
    product, position⟩ := fits
  have code : Code.stationState r.state < 16 := by cases r.state <;> decide
  have small {v : Nat} (le : v ≤ 255) : unbe (byte v) = v := unbe_be_of_lt (by omega)
  have word {v : Nat} (le : v ≤ 65535) : unbe (be 2 v) = v := unbe_be_of_lt (by omega)
  have wide {v : Nat} (le : v ≤ 4294967295) : unbe (be 4 v) = v := unbe_be_of_lt (by omega)
  have d10 : unbeInt (beInt 3 r.lastD10) = r.lastD10 := unbeInt_beInt (by omega) (by omega)
  have state : (r.activeBank * 16 + Code.stationState r.state) % 16 = Code.stationState r.state := by omega
  have active : (r.activeBank * 16 + Code.stationState r.state) / 16 % 4 = r.activeBank := by omega
  have known : ¬ (13 < r.serviceCause ∨ 13 < r.firstCause) := by omega
  simp only [readPace, PaceReport.payload, field]
  simp [slice_append_skip, slice_append_head, slice_self]
  simp (disch := omega) [small, word, wide, d10, state, active, known]
  rw [reportedState_code reports]

theorem HandoffCopy.payload_length (c : HandoffCopy) : c.payload.length = 12 := by simp [HandoffCopy.payload]

theorem entryKindOf_code (k : EntryKind) : Code.entryKindOf (Code.entryKind k) = some k := by cases k <;> rfl

theorem severityOf_code (w : Severity) : Code.severityOf (Code.severity w) = some w := by cases w <;> rfl

/-- What a copy's payload carries: all but its destination and the end of its entry (R179). -/
def HandoffCopy.read (c : HandoffCopy) : HandoffRead :=
  { kind := c.kind, origin := c.origin, severity := c.severity, count := c.count, extent := c.extent
    travel := c.travel }

theorem readHandoff_payload {c : HandoffCopy} (fits : copyFits c) : readHandoff c.payload = some c.read := by
  obtain ⟨originLow, originHigh, countLow, countHigh, extent, travelLow, travelHigh⟩ := fits
  have kind : Code.entryKind c.kind ≤ 255 := by cases c.kind <;> decide
  have weight : Code.severity c.severity ≤ 255 := by cases c.severity <;> decide
  have small {v : Nat} (le : v ≤ 255) : unbe (byte v) = v := unbe_be_of_lt (by omega)
  have wide {v : Nat} (le : v ≤ 4294967295) : unbe (be 4 v) = v := unbe_be_of_lt (by omega)
  have travel : unbeInt (beInt 4 c.travel) = c.travel := unbeInt_beInt (by omega) (by omega)
  have station : isStation c.origin = true := by simp [isStation, originLow, originHigh]
  simp only [readHandoff, HandoffCopy.payload, field]
  simp [slice_append_skip, slice_append_head, slice_self]
  simp (disch := omega) [small, wide, travel, station, countLow]
  rw [entryKindOf_code, severityOf_code]
  rfl

end Sys2Proof.Machine
end

section
/-!
PROOF. Frames addressed to this station: what passes the receive checks reaches its block; and the obligation about the
PACE frame (R131, R178, R187, R188).
-/

namespace Sys2Proof.Machine

open Sys2Proof.Safety

/-! ## A frame addressed to this station (R187, R188) -/

theorem rxFate_of_heard {s : State} {f : RxFrame} (addressed : hears f.sender f.dest s) {kind : BitVec 4}
    (known : ¬ (kind = 0 ∨ 8 < kind)) (short : f.payload.length ≤ 24)
    (size : sizeFits kind.toNat f.payload.length = true) : rxFate s.own kind f = .received := by
  obtain ⟨-, sender, other, dest⟩ := addressed
  have low : ¬ 62 < f.dest.toNat := by
    rcases dest with all | ⟨here, own⟩
    · simp [all]
    · simp only [isStation, Bool.and_eq_true, decide_eq_true_eq] at own
      omega
  have mine : ¬ (f.dest ≠ 0 ∧ f.dest.toNat ≠ s.own) := by
    rcases dest with all | ⟨here, -⟩
    · simp [all]
    · simp [here]
  rw [rxFate, if_neg (not_lt.mpr short), if_neg known, if_neg (by simp [size]), if_neg (by simp [sender, low]),
    if_neg mine, if_neg other]

/-- A frame that passes the tests is handed to its block once the line has heard it. -/
theorem receive_of_heard {s : State} {f : RxFrame} (addressed : hears f.sender f.dest s) {kind : BitVec 4}
    (known : ¬ (kind = 0 ∨ 8 < kind)) (short : f.payload.length ≤ 24)
    (size : sizeFits kind.toNat f.payload.length = true) : receive kind f s = handOn kind f (heard s) := by
  obtain ⟨isOn, seenIdle⟩ := addressed.1
  rw [receive, rxFate_of_heard addressed known short size, isOn, seenIdle]
  rfl

/-! ## The PACE frame (R131, R178) -/

theorem exec_paceFrame_of_heard {s : State} {f : RxFrame} (addressed : hears f.sender f.dest s)
    (length : f.payload.length = 24) : exec (.paceFrame f) s =
      .next (if s.station.state.reports = false then heard s else takePace f (heard s)) := by
  have received : receive 1 f s = handOn 1 f (heard s) :=
    receive_of_heard addressed (by decide) length.le (by rw [length]; rfl)
  refine (congrArg Host.Outcome.next received).trans (congrArg _ ?_)
  change (if !s.station.state.reports then _ else _) = _
  cases s.station.state.reports <;> rfl

/-- The report is stored in the entry of its peer (R131). -/
theorem takePace_of_read {f : RxFrame} {r : PaceReport} (read : readPace f.payload = some r) (s : State) :
    takePace f s = s.setPace { s.pace with listen := s.pace.listen.map (fun e =>
      if e.status = .peer ∧ e.number = f.sender.toNat then
        { e with lastReport := some r, staleCount := s.cfg.staleTime, stale := false } else e) } := by
  rw [takePace, read, ← mapTable_eq_map]

/-- Settles O37: the payload reads back (`readPace_payload`) and `takePace` stores it. -/
theorem paceFrameUpdatesThePeersEntry : Obligations.PaceFrameUpdatesThePeersEntry := by
  intro s f r addressed fits payload
  rw [exec_paceFrame_of_heard addressed (by rw [payload, r.payload_length]),
    takePace_of_read (by rw [payload, readPace_payload fits])]
  rfl

end Sys2Proof.Machine
end

section
/-!
PROOF. A peer's offer in this station's measure, and the ends of countdowns and pulses (R14, R96, R132, R133, R175,
R182).
-/

namespace Sys2Proof.Machine

open Sys2Proof.Safety

/-! ## A peer's contribution (R133) -/

theorem contribution_of_stale {e : ListenEntry} (stale : e.stale = true) : e.contribution = 0 := by
  unfold ListenEntry.contribution
  split
  · exact if_pos stale
  · rfl

theorem contribution_of_silent {e : ListenEntry} (silent : e.lastReport = none) : e.contribution = 0 := by
  rw [ListenEntry.contribution, silent]

section Reported

variable {e : ListenEntry} {r : PaceReport} (last : e.lastReport = some r)
include last

theorem contribution_of_other (other : r.state ≠ .run) : e.contribution = 0 := by
  rw [ListenEntry.contribution, last]
  dsimp only
  rw [if_neg other, ite_self]

theorem contribution_of_run (run : r.state = .run) (heardOf : e.stale = false) : e.contribution = match e.role with
    | .feed => r.feedOffer * 1000 / e.takeUp
    | .take => r.takeOffer * e.takeUp / 1000 := by
  rw [ListenEntry.contribution, last]
  exact (if_neg (by rw [heardOf]; exact Bool.false_ne_true)).trans (if_pos run)

/-- Stale or not, in RUN or not, a TAKE peer contributes no more than its offer converted. -/
theorem contribution_of_take_le (role : e.role = .take) : e.contribution ≤ r.takeOffer * e.takeUp / 1000 := by
  rw [ListenEntry.contribution, last, role]
  dsimp only
  split_ifs
  · exact Nat.zero_le _
  · exact le_rfl
  · exact Nat.zero_le _

end Reported

/-- Up as FEED and down again as TAKE, and the other way round: floored twice, a pace never grows. -/
theorem converted_back_le (pace takeUp : Nat) :
    pace * takeUp / 1000 * 1000 / takeUp ≤ pace ∧ pace * 1000 / takeUp * takeUp / 1000 ≤ pace :=
  ⟨Nat.div_le_of_le_mul ((Nat.div_mul_le_self _ _).trans (Nat.mul_comm pace takeUp).le),
    Nat.div_le_of_le_mul ((Nat.div_mul_le_self _ _).trans (Nat.mul_comm pace 1000).le)⟩

/-- Settles O26: the contribution by what the entry holds, and at take-up 1,400 by the arithmetic of one division. -/
theorem peerOfferIsConvertedToTheOwnMeasure : Obligations.PeerOfferIsConvertedToTheOwnMeasure := by
  intro e r
  refine ⟨contribution_of_stale, contribution_of_silent, contribution_of_other, contribution_of_run,
    fun role takeUp last => ⟨fun low => ?_, fun high run heardOf => ?_⟩,
    fun pace takeUp _ => converted_back_le pace takeUp⟩
  · have bound := contribution_of_take_le last role
    rw [takeUp] at bound
    omega
  · rw [contribution_of_run last run heardOf, role, takeUp]
    dsimp only
    omega

/-! ## The ends of countdowns and pulses -/

theorem staleAt_eq (i : Fin 6) (s : State) : staleAt i s =
    if s.station.state.reports = true ∧ s.pace.listen[i.val].status = .peer then { s with pace := { s.pace with
      listen := s.pace.listen.set i.val { s.pace.listen[i.val] with staleCount := 0, stale := true } } }
    else s := by
  unfold staleAt
  dsimp only
  rw [show s.pace.listen.get i = s.pace.listen[i.val] from rfl]
  exact if_congr (by rw [Bool.and_eq_true, beq_iff_eq]) rfl rfl

theorem holdTimeout_eq (s : State) : holdTimeout s = if s.ply.isOn = true ∧ s.ply.sending = false then
    { s with ply := { s.ply with idle := max s.ply.idle 128, seenIdle := true, hold := false } } else s :=
  if_congr (by rw [Bool.and_eq_true, Bool.not_eq_true']) rfl rfl

/-- Settles O31: two of the ends act under a guard, the other two always. -/
theorem countdownEndsActOnTheirOwnStateAlone : Obligations.CountdownEndsActOnTheirOwnStateAlone :=
  fun s i => ⟨congrArg _ (staleAt_eq i s), rfl, rfl, congrArg _ (holdTimeout_eq s)⟩

end Sys2Proof.Machine
end

section
/-!
PROOF. The pending arrivals list as a HANDOFF meets it: insertion in order, the full list, and HANDOFF_LOST (R140, R144,
R145).
-/

namespace Sys2Proof.Machine

open Sys2Proof.Safety

/-! ## The list (R140, R144) -/

theorem insertArrival_eq (a : Arrival) (l : List Arrival) :
    insertArrival a l = l.takeWhile (fun x => x.before a) ++ a :: l.dropWhile (fun x => x.before a) := by
  induction l with
  | nil => rfl
  | cons x xs ih =>
    rw [insertArrival, ih, List.takeWhile_cons, List.dropWhile_cons]
    split <;> simp_all

theorem takeLast_of_none {α : Type} {p : α → Bool} {l : List α} (none : ∀ x ∈ l, p x = false) :
    takeLast p l = Option.none := by
  induction l with
  | nil => rfl
  | cons x xs ih =>
    obtain ⟨first, rest⟩ := List.forall_mem_cons.mp none
    rw [takeLast, ih rest, first]
    rfl

theorem takeLast_at {α : Type} {p : α → Bool} {pre post : List α} {y : α} (holds : p y = true)
    (after : ∀ x ∈ post, p x = false) : takeLast p (pre ++ y :: post) = some (y, pre ++ post) := by
  induction pre with
  | nil =>
    rw [List.nil_append, takeLast, takeLast_of_none after, holds]
    rfl
  | cons x xs ih =>
    rw [List.cons_append, takeLast, ih]
    rfl

/-! ## A record joins (R140, R144, R145) -/

section Joins

variable {a : Arrival} {s : State}

theorem joinArrivals_of_room (room : s.pace.arrivals.length < Config.arrivalCapacity) :
    joinArrivals a s = s.setPace { s.pace with arrivals := insertArrival a s.pace.arrivals } := if_pos room

variable (full : ¬ s.pace.arrivals.length < Config.arrivalCapacity)
include full

theorem joinArrivals_of_light (light : a.light = true) : joinArrivals a s = countArrivalDropped s := by
  rw [joinArrivals, if_neg full, if_pos light]

variable (heavy : a.light = false)
include heavy

theorem joinArrivals_of_replaced {pre post : List Arrival} {v : Arrival} (arrivals : s.pace.arrivals = pre ++ v :: post)
    (light : v.light = true) (after : ∀ x ∈ post, x.light = false) : joinArrivals a s =
      countArrivalDropped (s.setPace { s.pace with arrivals := insertArrival a (pre ++ post) }) := by
  have dropped : dropLight s.pace.arrivals = some (pre ++ post) := by
    rw [dropLight, arrivals, takeLast_at light after]
    rfl
  rw [joinArrivals, if_neg full, heavy, if_neg Bool.false_ne_true, dropped]

theorem joinArrivals_of_lost (none : ∀ x ∈ s.pace.arrivals, x.light = false) :
    joinArrivals a s = raiseSoft .handoffLost (countArrivalDropped s) := by
  have kept : dropLight s.pace.arrivals = Option.none := by
    rw [dropLight, takeLast_of_none none]
    rfl
  rw [joinArrivals, if_neg full, heavy, if_neg Bool.false_ne_true, kept]

end Joins

/-! ## A SOFT cause whatever room the queue has (R153, R161) -/

theorem raiseSoft_peers_eq (c : LocalCause) (s : State) : (raiseSoft c s).station.peers = s.station.peers := by
  unfold raiseSoft
  split
  · obtain ⟨gone, station⟩ := announce_station c (s.setStation (s.station.takeLocal s.own c))
    rw [actSoft_station, Station.softened_peers, station]
    rfl
  · rfl

theorem Station.softened_of_ready {st : Station} (ready : st.state = .ready) : st.softened = st.enter .stopped := by
  simp [Station.softened, ready]

/-- A new SOFT cause stops a READY station (R153). -/
theorem raiseSoft_of_ready {s : State} {c : LocalCause} (ready : s.station.state = .ready)
    (new : c ∉ s.station.locals) : (raiseSoft c s).station.state = .stopped := by
  obtain ⟨gone, station⟩ := announce_station c (s.setStation (s.station.takeLocal s.own c))
  rw [raiseSoft_of_new (inRun_of_state ready rfl) new, actSoft_station, station, State.setStation_station]
  rw [Station.softened_of_ready (st := { s.station.takeLocal s.own c with answerGone := gone }) ready]
  rfl

/-- Of pace and hand-off a SOFT cause changes at most the run pace and the pace period. -/
theorem raiseSoft_arrivalsDropped (c : LocalCause) (s : State) :
    (raiseSoft c s).pace.arrivalsDropped = s.pace.arrivalsDropped := by
  have refreshed (s : State) : (refreshPace s).pace.arrivalsDropped = s.pace.arrivalsDropped := by
    unfold refreshPace; split <;> rfl
  have acts (s : State) : (actSoft s).pace.arrivalsDropped = s.pace.arrivalsDropped := by
    unfold actSoft
    (repeat' split) <;> simp [stopFromReady, ease, changeState, refreshed]
  unfold raiseSoft
  split
  · simp [acts]
  · rfl

end Sys2Proof.Machine
end

section
/-!
PROOF. The HANDOFF frame: accepted or ignored, arriving at once or pending, what an arrival makes the package former do,
and the obligation about it (R84, R101, R105, R138 to R145, R179).
-/

namespace Sys2Proof.Machine

open Sys2Proof.Safety

/-! ## What an inserted entry makes the former do (R84, R101, R105) -/

section Inserted

variable {s : State} {p : PackageRecord} (forming : s.cfg.forming = true) (opened : s.openPackage = some p) (f : Fire)
  {e : MapEntry} (notJoin : e.kind ≠ .join)
include forming opened notJoin

/-- A MAJOR entry is cut out where the bank asks for it and weighed against the plan. -/
theorem entryInserted_of_major (major : e.severity = .major) (notChange : e.kind ≠ .change) : entryInserted f e s =
    checkPlan f (if (s.packagePage p.bank).cutOutMajor = true then (cutOut f e false s).1 else s) := by
  simp [entryInserted, State.forming, forming, opened, cutsOutMajor_of_open opened, MapEntry.blocker, major, notJoin,
    notChange]

/-- A MINOR entry is no blocker: only a CHANGE of another station concerns the former. -/
theorem entryInserted_of_minor (minor : e.severity = .minor) : entryInserted f e s =
    if e.kind == .change && e.origin != 0 then changeCut f e s else s := by
  simp [entryInserted, State.forming, forming, opened, MapEntry.blocker, minor, notJoin]

end Inserted

/-! ## The CHANGE cut (R105) -/

section ChangeCut

variable {s : State} {e : MapEntry} (f : Fire)

theorem changeCut_of_due (due : e.position + s.cfg.cutterOffset ≤ s.pos) :
    changeCut f e s = f (cutAt e.position .change none none) (s.pos - s.cfg.cutterOffset) 0 s := by
  have behind : ¬ ahead s (cutAt e.position .change none none) := by
    rintro (waiting | lies)
    · cases waiting
    · exact absurd due (not_le.mpr lies)
  have fires : (newCut e.position .change false none).due s.cfg.cutterOffset s.pos = true := decide_eq_true due
  rw [changeCut, if_pos (.inl fires)]
  exact placeCut_of_due behind f 0

variable (lies : s.pos < e.position + s.cfg.cutterOffset)
include lies

theorem not_changeCut_due : ¬ (newCut e.position .change false none).due s.cfg.cutterOffset s.pos = true := by
  rw [Cut.due, decide_eq_true_eq]
  exact not_le.mpr lies

theorem changeCut_of_room (room : s.former.cuts.length < Config.cutCapacity) : changeCut f e s =
    setCuts (cutPlaced (firmed (xNow s) s.pos (cutAt e.position .change none none)) s.former.cuts) s := by
  rw [changeCut, if_pos (.inr room)]
  exact (placeCut_of_ahead (c := cutAt e.position .change none none) (.inr lies) f 0).trans (if_pos room)

variable (full : ¬ s.former.cuts.length < Config.cutCapacity)
include full

/-- The first PACKAGE_END of a full list gives way. -/
theorem changeCut_of_replaced {pre post : List Cut} {q : Cut} (cuts : s.former.cuts = pre ++ q :: post)
    (before : ∀ r ∈ pre, r.isPackageEnd = false) (planned : q.isPackageEnd = true)
    (room : (pre ++ post).length < Config.cutCapacity) : changeCut f e s =
    setCuts (cutPlaced (firmed (xNow s) s.pos (cutAt e.position .change none none)) (pre ++ post)) s := by
  rw [changeCut, if_neg (not_or.mpr ⟨not_changeCut_due lies, full⟩), cuts, takeFirst_at before planned]
  exact (placeCut_of_ahead (s := setCuts (pre ++ post) s) (c := cutAt e.position .change none none) (.inr lies) f
    0).trans (if_pos room)

theorem changeCut_of_refused (none : ∀ r ∈ s.former.cuts, r.isPackageEnd = false) :
    changeCut f e s = refuseCut s := by
  rw [changeCut, if_neg (not_or.mpr ⟨not_changeCut_due lies, full⟩), takeFirst_none.mpr none]

end ChangeCut

theorem isPackageEnd_iff (c : Cut) : c.isPackageEnd = true ↔ c.purpose = .packageEnd := beq_iff_eq
theorem isPackageEnd_false_iff (c : Cut) : c.isPackageEnd = false ↔ c.purpose ≠ .packageEnd := beq_eq_false_iff_ne

/-! ## An arrival (R74, R142) -/

/-- An arrived record of another station with room in the map: its entry is inserted, handed off and told to the former
(R84). -/
theorem offerArrival_told {s : State} {a : Arrival} (other : a.origin ≠ s.own)
    (room : s.map.entries.length < Config.mapCapacity) : offerArrival s a =
      entryInserted fire (arrivedEntry s.pos s a) (handOff (arrivedEntry s.pos s a)
        (s.setMap { s.map with entries := insertEntry (arrivedEntry s.pos s a) s.map.entries })) := by
  rw [offerArrival, if_neg other, offerEntry, offerRaw_of_room rfl room]
  rfl

/-! ## The frame (R138, R139) -/

/-- The station with the next HANDOFF accepted numbered (R140). -/
def numbered (s : State) : State := s.setPace { s.pace with nextAccept := s.pace.nextAccept + 1 }

/-- The record that a copy from a FEED peer becomes (R139). -/
def acceptedArrival (e : ListenEntry) (c : HandoffCopy) (s : State) : Arrival :=
  { kind := c.kind, origin := c.origin, severity := c.severity, count := c.count, extent := c.extent
    feeder := e.number, remaining := max 0 ((e.path : Int) - c.travel) * 1000, accepted := s.pace.nextAccept }

theorem acceptHandoff_of_arrived {e : ListenEntry} {c : HandoffCopy} (arrived : (e.path : Int) ≤ c.travel) (s : State) :
    acceptHandoff e c.read s = offerArrival (numbered s) (acceptedArrival e c s) :=
  if_pos (by change max 0 ((e.path : Int) - c.travel) * 1000 = 0; omega)

theorem acceptHandoff_of_pending {e : ListenEntry} {c : HandoffCopy} (pending : c.travel < e.path) (s : State) :
    acceptHandoff e c.read s = joinArrivals (acceptedArrival e c s) (numbered s) :=
  if_neg (by change ¬ max 0 ((e.path : Int) - c.travel) * 1000 = 0; omega)

theorem exec_handoffFrame_of_heard {s : State} {f : RxFrame} (addressed : hears f.sender f.dest s)
    (length : f.payload.length = 12) : exec (.handoffFrame f) s =
      .next (if s.station.state.reports = false then heard s else handoffFrame f (heard s)) := by
  have received : receive 5 f s = handOn 5 f (heard s) :=
    receive_of_heard addressed (by decide) (by rw [length]; decide) (by rw [length]; rfl)
  refine (congrArg Host.Outcome.next received).trans (congrArg _ ?_)
  change (if !s.station.state.reports then _ else _) = _
  cases s.station.state.reports <;> rfl

section Frame

variable {s : State} {f : RxFrame} {h : HandoffRead} (read : readHandoff f.payload = some h)
include read

theorem handoffFrame_of_ignored (ignored : s.inRun = false ∨ f.dest = 0 ∨
      (∀ e, s.peerOf f.sender.toNat = some e → e.role ≠ .feed)) : handoffFrame f s =
    s.setPace { s.pace with handoffsIgnored := min 65535 (s.pace.handoffsIgnored + 1) } := by
  unfold handoffFrame
  dsimp only
  rw [read]
  cases sender : s.peerOf f.sender.toNat with
  | none => rfl
  | some e =>
    refine if_neg fun taken => ?_
    simp only [Bool.and_eq_true, bne_iff_ne, beq_iff_eq] at taken
    obtain ⟨⟨run, here⟩, feed⟩ := taken
    rcases ignored with idle | all | other
    · rw [idle] at run; cases run
    · exact here all
    · exact other e sender feed

theorem handoffFrame_of_accepted {e : ListenEntry} (run : s.inRun = true) (here : f.dest ≠ 0)
    (sender : s.peerOf f.sender.toNat = some e) (feed : e.role = .feed) :
    handoffFrame f s = acceptHandoff e h s := by
  unfold handoffFrame
  dsimp only
  rw [read, sender]
  exact if_pos (by rw [run, feed, bne_iff_ne.mpr here]; rfl)

end Frame

/-- A station in a run builds reports (R130). -/
theorem reports_of_inRun {s : State} (run : s.inRun = true) : s.station.state.reports = true := by
  rw [State.inRun] at run
  cases state : s.station.state with
  | start | held => rw [state] at run; cases run
  | idle | ready | run | easing | stopped => rfl

/-- A frame from a FEED peer in a run is accepted (R139). -/
theorem exec_handoffFrame_of_accepted {s : State} {f : RxFrame} {c : HandoffCopy} {e : ListenEntry}
    (addressed : hears f.sender f.dest s) (fits : copyFits c) (payload : f.payload = c.payload)
    (run : s.inRun = true) (here : f.dest ≠ 0) (sender : s.peerOf f.sender.toNat = some e) (feed : e.role = .feed) :
    exec (.handoffFrame f) s = .next (acceptHandoff e c.read (heard s)) := by
  have read : readHandoff f.payload = some c.read := by rw [payload, readHandoff_payload fits]
  rw [exec_handoffFrame_of_heard addressed (by rw [payload, c.payload_length]), if_neg (by simp [reports_of_inRun run]),
    handoffFrame_of_accepted (s := heard s) read run here sender feed]

/-- Settles O41: the frame by `exec_handoffFrame_of_accepted` and what a full list does with the record, the former by
`entryInserted` and `changeCut`. -/
theorem handoffFrameJoinsThePendingArrivals : Obligations.HandoffFrameJoinsThePendingArrivals := by
  refine ⟨fun s f c addressed fits payload => ⟨fun silent => ?silent, fun reports ignored => ?ignored,
    fun e run here sender feed => ?accepted⟩, fun s p e forming opened => ?former⟩
  case silent =>
    rw [exec_handoffFrame_of_heard addressed (by rw [payload, c.payload_length]), if_pos silent]
  case ignored =>
    have read : readHandoff f.payload = some c.read := by rw [payload, readHandoff_payload fits]
    rw [exec_handoffFrame_of_heard addressed (by rw [payload, c.payload_length]), if_neg (by simp [reports]),
      handoffFrame_of_ignored (s := heard s) read ignored]
    rfl
  case accepted =>
    intro a earlier
    have taken := exec_handoffFrame_of_accepted addressed fits payload run here sender feed
    have arrives (arrived : (e.path : Int) ≤ c.travel) :
        exec (.handoffFrame f) s = .next (offerArrival (numbered (heard s)) a) :=
      taken.trans (congrArg _ (acceptHandoff_of_arrived arrived _))
    have joins (pending : c.travel < e.path) :
        exec (.handoffFrame f) s = .next (joinArrivals a (numbered (heard s))) :=
      taken.trans (congrArg _ (acceptHandoff_of_pending pending _))
    have order (x : Arrival) : x.before a = earlier x := by
      rw [Bool.eq_iff_iff, Arrival.before_iff]
      exact decide_eq_true_iff.symm
    refine ⟨fun l => ?inserted, ?rest⟩
    case inserted => rw [insertArrival_eq]; simp only [order]
    intro light full
    refine ⟨fun pending room => ?joins, fun arrived other room => ?arrives, fun arrived own => ?own,
      fun pending long => ⟨fun minor => ?dropped, fun pre v post heavy arrivals gives after => ?replaced,
        fun heavy none => ?lost⟩⟩
    case joins => exact (joins pending).trans (congrArg _ (joinArrivals_of_room room))
    case arrives =>
      rw [arrives arrived, offerArrival_told (s := numbered (heard s)) other room]
      refine congrArg _ ?_
      cases forming : s.cfg.forming with
      | true => exact (if_pos rfl).symm
      | false => exact entryInserted_of_not_forming (by rw [cfg_congr (handOff_start _ _)]; exact forming) _ _
    case own => exact (arrives arrived).trans (congrArg _ (offerArrival_of_own own))
    case dropped => exact (joins pending).trans (congrArg _ (joinArrivals_of_light (not_lt.mpr long) minor))
    case replaced =>
      exact (joins pending).trans
        (congrArg _ (joinArrivals_of_replaced (s := numbered (heard s)) (not_lt.mpr long) heavy arrivals gives after))
    case lost =>
      have counted := joinArrivals_of_lost (s := numbered (heard s)) (not_lt.mpr long) heavy none
      refine ⟨_, (joins pending).trans (congrArg _ counted), mem_locals_raiseSoft _ run, raiseSoft_peers_eq _ _,
        raiseSoft_arrivals _ _, raiseSoft_arrivalsDropped _ _, fun new running free => ?eases, fun new ready => ?stops,
        raiseSoft_map _ _, calm_acc.raiseSoft _ _⟩
      case eases =>
        obtain ⟨eases, -⟩ := raiseSoft_of_running (s := countArrivalDropped (numbered (heard s))) rfl running free new
        exact eases
      case stops => exact raiseSoft_of_ready (s := countArrivalDropped (numbered (heard s))) ready new
  case former =>
    intro page x withCuts cut
    have exclusion : xNow s = x := xNow_of_open opened
    refine ⟨fun major notJoin notChange => entryInserted_of_major forming opened fire notJoin major notChange,
      fun minor notJoin mine => ?minor, fun minor change foreign => ?change⟩
    case minor =>
      rw [entryInserted_of_minor forming opened fire notJoin minor]
      refine if_neg fun foreign => ?_
      simp only [Bool.and_eq_true, beq_iff_eq, bne_iff_ne] at foreign
      exact foreign.2 (mine foreign.1)
    case change =>
      have cuts : entryInserted fire e s = changeCut fire e s := by
        rw [entryInserted_of_minor forming opened fire (by rw [change]; decide) minor]
        exact if_pos (by rw [change, bne_iff_ne.mpr foreign]; rfl)
      rw [cuts]
      refine ⟨changeCut_of_due fire, fun lies => ⟨fun room => ?_, fun pre q post length split before planned => ?_,
        fun long none => ?_⟩⟩
      · rw [changeCut_of_room fire lies room, exclusion]
        rfl
      · have room : (pre ++ post).length < Config.cutCapacity := by
          rw [split] at length
          simp only [List.length_append, List.length_cons] at length ⊢
          exact show _ < 6 by omega
        have ahead := fun r mem => (isPackageEnd_false_iff r).mpr (before r mem)
        rw [changeCut_of_replaced fire lies (by rw [length]; decide) split ahead
          ((isPackageEnd_iff q).mpr planned) room, exclusion]
        rfl
      · rw [changeCut_of_refused fire lies (not_lt.mpr long) fun r mem => (isPackageEnd_false_iff r).mpr (none r mem)]
        rfl

end Sys2Proof.Machine
end

section
/-!
PROOF. The entry to STOPPED from RUN or EASING: whatever the former is told on the way, the station stands STOPPED with
DEN off, and no window and no row is open (R41, R62, R155, R159).
-/

namespace Sys2Proof.Machine

open Sys2Proof.Safety

/-- The station stands STOPPED, DEN off, with START's block, length metering and pace as in `u`; where `window` holds no
window is open, and where `row` holds no row. -/
structure Halted (u : State) (window row : Prop) (s : State) : Prop where
  start : s.start = u.start
  length : s.length = u.length
  pace : s.pace = u.pace
  state : s.station.state = .stopped
  den : s.station.den = false
  noWindow : window → s.twist.windowOpen = false
  noRow : row → s.knot.rowOpen = false

theorem StationStands.of_eq {s t : State} (station : t.station = s.station) : StationStands s.station t :=
  ⟨s.station.answerGone, station⟩

theorem StationStands.trans {s t u : State} (first : StationStands s.station t) (second : StationStands t.station u) :
    StationStands s.station u := by
  obtain ⟨_, station⟩ := first
  obtain ⟨gone, later⟩ := second
  exact ⟨gone, by rw [later, station]⟩

theorem endTwistRun_stands (s : State) : StationStands s.station (endTwistRun s).1 :=
  closeEntry_stands .twist (s.setTwist s.twist.endRun)

theorem closeKnotEntries_stands (s : State) : StationStands s.station (closeKnotEntries s).1 :=
  (closeEntry_stands .knot s).trans (closeEntry_stands .mesh _)

/-- On a STOPPED station a SOFT cause is taken and announced to nobody (R153, R169). -/
theorem raiseSoft_of_stopped {s : State} (stopped : s.station.state = .stopped) (c : LocalCause) :
    raiseSoft c s = s ∨ raiseSoft c s = s.setStation (s.station.takeLocal s.own c) := by
  have state : (s.station.takeLocal s.own c).state = .stopped := stopped
  unfold raiseSoft
  split
  · exact .inr (by simp [announce, actSoft, state])
  · exact .inl rfl

namespace Halted

variable {u : State} {window row : Prop} {s : State} (h : Halted u window row s)
include h

/-- What leaves START's block, length metering and pace, opens nothing and keeps the station but for the ANSWER that has
gone. -/
theorem frame {t : State} (start : t.start = s.start) (length : t.length = s.length) (pace : t.pace = s.pace)
    (station : StationStands s.station t) (shut : window → t.twist.windowOpen = false)
    (noRow : t.knot.rowOpen = s.knot.rowOpen) : Halted u window row t := by
  obtain ⟨gone, station⟩ := station
  exact ⟨start.trans h.start, length.trans h.length, pace.trans h.pace, by rw [station]; exact h.state,
    by rw [station]; exact h.den, shut, fun r => noRow.trans (h.noRow r)⟩

theorem setMarks (m : Marks) : Halted u window row (s.setMarks m) :=
  h.frame rfl rfl rfl (.of_eq rfl) h.noWindow rfl

theorem raiseSoft (c : LocalCause) : Halted u window row (Machine.raiseSoft c s) := by
  obtain same | taken := raiseSoft_of_stopped h.state c
  · rwa [same]
  · rw [taken]
    exact ⟨h.start, h.length, h.pace, h.state, h.den, h.noWindow, h.noRow⟩

end Halted

theorem halted_mapKeeps (u : State) (window row : Prop) : MapKeeps (Halted u window row) where
  map _ _ h := h.frame rfl rfl rfl (.of_eq rfl) h.noWindow rfl
  queue s b h := h.frame (by simp) (by simp) (by simp) (enqueue_station b s) (by simpa using h.noWindow) (by simp)
  raise _ c h := h.raiseSoft c

/-! ## The bank switch on a STOPPED station (R42, R64, R124) -/

namespace Halted

variable {u : State} {window row : Prop} {s : State} (h : Halted u window row s)
include h

theorem switchTwist (old : Nat) : Halted u window row (Machine.switchTwist old s).1 := by
  have still : s.station.state.driven = false := by rw [h.state]; rfl
  unfold Machine.switchTwist
  split
  · dsimp only
    rw [still, if_neg Bool.false_ne_true]
    have stands := endTwistRun_stands (s.setTwist s.twist.discardWindow)
    exact h.frame (by simp) (by simp) (by simp) (stands.trans (.of_eq (by simp)))
      (fun _ => by simp [retarget, endTwistRun, Twist.clearResults, Twist.endRun, Twist.discardWindow])
      (by simp)
  · exact h

theorem switchKnot : Halted u window row (Machine.switchKnot s).1 := by
  unfold Machine.switchKnot
  split
  · exact h.frame (by simp) (by simp) (by simp)
      (closeKnotEntries_stands (s.setKnot _)) (by simpa using h.noWindow) (by simp)
  · exact h

theorem switchBank (k position : Nat) : Halted u window row (Machine.switchBank k position s).1 := by
  have switched : Halted u window row (switchStates k s) :=
    h.frame (by simp) (by simp) (by simp) (.of_eq (by simp)) (by simpa using h.noWindow) (by simp)
  have knotted := (((halted_mapKeeps u window row).offerRaw switched (.offerOf .change position)).switchTwist
    s.twistPage.target10).switchKnot
  unfold Machine.switchBank
  dsimp only
  split
  · exact knotted
  · exact knotted.setMarks _

end Halted

theorem halted_formerKeeps (u : State) (window row : Prop) : FormerKeeps (Halted u window row) where
  toMapKeeps := halted_mapKeeps u window row
  former _ _ h := h.frame rfl rfl rfl (.of_eq rfl) h.noWindow rfl
  marks _ m h := h.setMarks m
  switch s position h := by
    unfold switchStaged
    split
    · exact h.switchBank _ _
    · exact h

/-! ## The entry to STOPPED (R155) -/

namespace Halted

variable {u : State} {s : State}

/-- Step 2: on a LAYING station no window is open any more. -/
theorem stopTwist (h : Halted u False False s) : Halted u (u.cfg.kind = .laying) False (Machine.stopTwist s) := by
  unfold Machine.stopTwist
  split
  · have discarded : Halted u (u.cfg.kind = .laying) False (s.setTwist s.twist.discardWindow) :=
      ⟨h.start, h.length, h.pace, h.state, h.den, fun _ => rfl, h.noRow⟩
    have ended := discarded.frame (t := (endTwistRun (s.setTwist s.twist.discardWindow)).1) (by simp) (by simp)
      (by simp) (endTwistRun_stands _) (fun _ => by simp [endTwistRun, Twist.endRun, Twist.discardWindow]) (by simp)
    exact (halted_formerKeeps u _ _).tellAll _ ended
  · rename_i other
    have laying : s.isLaying = true ↔ u.cfg.kind = .laying := by rw [isLaying_iff, cfg_congr h.start]
    exact ⟨h.start, h.length, h.pace, h.state, h.den, fun kind => absurd (laying.mpr kind) other, h.noRow⟩

/-- Step 3: on a NETTING station no row is open any more. -/
theorem stopKnot {window : Prop} (h : Halted u window False s) :
    Halted u window (u.cfg.kind = .netting) (Machine.stopKnot s) := by
  unfold Machine.stopKnot
  split
  · have discarded : Halted u window (u.cfg.kind = .netting) (s.setKnot s.knot.discardRow) :=
      ⟨h.start, h.length, h.pace, h.state, h.den, h.noWindow, fun _ => rfl⟩
    have ended := discarded.frame (t := (closeKnotEntries (s.setKnot s.knot.discardRow)).1) (by simp) (by simp)
      (by simp) (closeKnotEntries_stands _) (by simpa using h.noWindow) (by simp)
    exact (halted_formerKeeps u _ _).tellAll _ ended
  · rename_i other
    have netting : s.isNetting = true ↔ u.cfg.kind = .netting := by rw [isNetting_iff, cfg_congr h.start]
    exact ⟨h.start, h.length, h.pace, h.state, h.den, h.noWindow, fun kind => absurd (netting.mpr kind) other⟩

end Halted

/-- Step 1 of R155: the station STOPPED, no dwell, and the run pace 0. -/
def stilled (s : State) : State :=
  (clearDwell (s.setStation (s.station.enter .stopped))).setPace { s.pace with run := 0 }

theorem stilled_halted (s : State) : Halted (stilled s) False False (stilled s) :=
  ⟨rfl, rfl, rfl, by simp [stilled, Station.enter], by simp [stilled, Station.enter, StationState.driven], False.elim,
    False.elim⟩

/-- The entry to STOPPED ends with a refresh of the slot, on a station that stands halted (R130, R155). -/
theorem enterStopped_halted (s : State) : ∃ x, enterStopped s = refreshPace x ∧
    Halted (stilled s) (s.cfg.kind = .laying) (s.cfg.kind = .netting) x := by
  have kept : (stilled s).cfg = s.cfg := cfg_congr (by simp [stilled])
  have discarded : Halted (stilled s) (s.cfg.kind = .laying) (s.cfg.kind = .netting)
      (stopKnot (stopTwist (stilled s))) := by
    rw [← kept]
    exact (stilled_halted s).stopTwist.stopKnot
  have keeps := halted_formerKeeps (stilled s) (s.cfg.kind = .laying) (s.cfg.kind = .netting)
  have begins : stilled s = (clearDwell (s.setStation (s.station.enter .stopped))).setPace
      { (clearDwell (s.setStation (s.station.enter .stopped))).pace with run := 0 } := by simp [stilled]
  unfold enterStopped
  dsimp only
  rw [← begins]
  refine ⟨_, rfl, ?_⟩
  split
  · split
    · exact keeps.map _ _ discarded
    · exact keeps.offerPoint discarded _
  · exact keeps.offerPoint discarded _

end Sys2Proof.Machine
end

section
/-!
PROOF. The regulation tick part by part: what a dwell leaves alone, the offers, the pace period, the set-point link, and
the tick with the run pace ramped (R9, R10, R38, R39, R130 to R136).
-/

namespace Sys2Proof.Machine

open Sys2Proof.Safety

/-! ## The dwell countdown (R9, R10) -/

theorem enqueue_paceWaiting (b : TxBody) (s : State) : (enqueue b s).ply.paceWaiting = s.ply.paceWaiting := by
  unfold enqueue; dsimp only; (repeat' split) <;> simp

theorem handOff_paceWaiting (e : MapEntry) (s : State) : (handOff e s).ply.paceWaiting = s.ply.paceWaiting :=
  foldl_keeps (fun s => s.ply.paceWaiting) _ (fun _ _ => enqueue_paceWaiting _ _) _ s

/-- Only the map and the transmit queue of `t` differ from `s`. -/
def Logged (s t : State) : Prop := t = (s.setMap t.map).setPly t.ply ∧ t.ply.paceWaiting = s.ply.paceWaiting

/-- A DWELL is written into the map, handed off or refused: nothing else is told (R10, R73). -/
theorem writeDwell_logged (s : State) : Logged s (writeDwell s) := by
  have offered : Logged s (offerPoint .dwell s) := by
    rcases lt_or_ge s.map.entries.length Config.mapCapacity with room | full
    · rw [offerPoint_of_room rfl room]
      refine ⟨(handOff_eq_setPly _ (withPoint .dwell s)).trans ?_, handOff_paceWaiting _ _⟩
      rw [handOff_map]
      rfl
    · rw [offerPoint_of_full rfl full]
      exact ⟨rfl, rfl⟩
  unfold writeDwell
  split
  · split
    · exact ⟨rfl, rfl⟩
    · exact offered
  · exact offered

/-- The dwell countdown of a tick changes length metering but for the position, the map and the transmit queue. -/
structure DwellTicked (s t : State) : Prop where
  rest : t = ((s.setLength t.length).setMap t.map).setPly t.ply
  acc : t.length.acc = s.length.acc
  paceWaiting : t.ply.paceWaiting = s.ply.paceWaiting

namespace DwellTicked

variable {s t : State} (h : DwellTicked s t)
include h

theorem start : t.start = s.start := by rw [h.rest]; rfl
theorem station : t.station = s.station := by rw [h.rest]; rfl
theorem twist : t.twist = s.twist := by rw [h.rest]; rfl
theorem pace : t.pace = s.pace := by rw [h.rest]; rfl
theorem banks : t.banks = s.banks := by rw [h.rest]; rfl

end DwellTicked

theorem tickDwell_still {s : State}
    (still : s.station.state ≠ .run ∨ s.length.dwelling = true ∨ s.length.dwellCount = 0) : tickDwell s = s := by
  refine if_neg fun ⟨run, awake, counts⟩ => ?_
  rcases still with other | dwells | ended
  · exact other run
  · exact Bool.false_ne_true (awake.symm.trans dwells)
  · exact counts.ne' ended

section Counting

variable {s : State} (run : s.station.state = .run) (awake : s.length.dwelling = false)
include run awake

theorem tickDwell_counts (counts : 1 < s.length.dwellCount) :
    tickDwell s = s.setLength { s.length with dwellCount := s.length.dwellCount - 1 } := by
  unfold tickDwell
  dsimp only
  rw [if_pos ⟨run, awake, by omega⟩]
  exact if_neg (Nat.sub_ne_zero_of_lt counts)

/-- The last tick of the countdown is a DWELL_START (R10; log entry 13). -/
theorem tickDwell_begins (last : s.length.dwellCount = 1) : tickDwell s = beginDwell s := by
  unfold tickDwell
  dsimp only
  rw [if_pos ⟨run, awake, by omega⟩, if_pos (by rw [State.setLength_length, last])]
  refine Eq.trans ?_ (beginDwell_of_run run awake).symm
  exact beginDwell_of_run (s := s.setLength _) run awake

theorem beginDwell_ticked : DwellTicked s (beginDwell s) ∧ (beginDwell s).length = (dwells s).length := by
  rw [beginDwell_of_run run awake]
  obtain ⟨logged, waiting⟩ := writeDwell_logged (dwells s)
  have length : (writeDwell (dwells s)).length = (dwells s).length := by rw [logged]; rfl
  refine ⟨⟨?_, by rw [length]; rfl, waiting⟩, length⟩
  rw [length]
  exact logged

end Counting

theorem tickDwell_ticked (s : State) : DwellTicked s (tickDwell s) := by
  by_cases still : s.station.state ≠ .run ∨ s.length.dwelling = true ∨ s.length.dwellCount = 0
  · rw [tickDwell_still still]
    exact ⟨rfl, rfl, rfl⟩
  · obtain ⟨run, awake, counts⟩ : s.station.state = .run ∧ s.length.dwelling = false ∧ s.length.dwellCount ≠ 0 := by
      simpa using still
    rcases eq_or_ne s.length.dwellCount 1 with last | early
    · rw [tickDwell_begins run awake last]
      exact (beginDwell_ticked run awake).1
    · rw [tickDwell_counts run awake (by omega)]
      exact ⟨rfl, rfl, rfl⟩

/-! ## Stale countdowns and offers (R132, R134) -/

/-- The station with its stale countdowns counted and its offers and target formed. -/
def offered (s : State) : State :=
  computeOffers (s.setPace { s.pace with listen := mapTable ListenEntry.tick s.pace.listen })

/-- The same with the run pace at `r`. -/
def paced (r : Nat) (s : State) : State := (offered s).setPace { (offered s).pace with run := r }

/-- The offers of this tick, from the listen table as counted. -/
def OffersFormed (s t : State) : Prop :=
  let listen := s.pace.listen.map ListenEntry.tick
  let peers := listen.toList.filter (fun e => e.status == .peer)
  t.pace.listen = listen ∧
    t.pace.feedOffer = leastOf s.twist.ownOffer (peers.filter (fun e => e.role == .feed)) ∧
    t.pace.takeOffer = leastOf s.twist.ownOffer (peers.filter (fun e => e.role == .take))

theorem paced_offers (r : Nat) (s : State) : OffersFormed s (paced r s) := by
  rw [OffersFormed, ← mapTable_eq_map]
  exact ⟨rfl, rfl, rfl⟩

/-! ## The pace period (R130) -/

theorem tickPeriod_eq {s : State} (reports : s.station.state.reports = true) : tickPeriod s =
    (s.setPace { s.pace with period := if s.pace.period = 1 then s.cfg.pacePeriod else s.pace.period - 1 }).setPly
      (if s.pace.period = 1 then { s.ply with paceWaiting := some ⟨buildReport s, 0⟩ } else s.ply) := by
  unfold tickPeriod
  dsimp only
  rcases eq_or_ne s.pace.period 1 with last | early
  · rw [if_pos (by omega), if_pos (by rw [State.setPace_pace, last]), if_pos last, if_pos last]
    exact refreshPace_of_reports (s := s.setPace _) reports
  · rw [if_neg early, if_neg early]
    split_ifs with counts ended
    · exact absurd (show s.pace.period - 1 = 0 from ended) (by omega)
    · rfl
    · rw [show s.pace.period - 1 = s.pace.period by omega]
      rfl

/-- The pace period of `s` as a tick that ends at `t` leaves it. -/
def PeriodTicked (s t : State) : Prop :=
  (s.pace.period ≠ 1 → t.pace.period = s.pace.period - 1 ∧ t.ply.paceWaiting = s.ply.paceWaiting) ∧
  (s.pace.period = 1 → t.pace.period = s.cfg.pacePeriod ∧
    ∃ r : PaceReport, t.ply.paceWaiting = some ⟨r, 0⟩ ∧ r.state = s.station.state ∧
      r.runPace = t.pace.run ∧ r.ownOffer = s.twist.ownOffer ∧ r.feedOffer = t.pace.feedOffer ∧
      r.takeOffer = t.pace.takeOffer ∧ r.position = s.length.acc / 1000)

/-! ## The set-point link (R38, R39) -/

/-- Transferred or unchanged, the link holds both words. -/
theorem Twist.transferred (run cmd : Nat) (t : Twist) :
    let u := if run = t.linkCapstan ∧ cmd = t.linkSpindle then t else t.transfer run cmd
    u.linkCapstan = run ∧ u.linkSpindle = cmd ∧ u = { t with
      linkCapstan := u.linkCapstan, linkSpindle := u.linkSpindle, link := u.link, dck := u.dck, dda := u.dda
      dlt := u.dlt } := by
  intro u
  by_cases same : run = t.linkCapstan ∧ cmd = t.linkSpindle
  · have kept : u = t := if_pos same
    rw [kept]
    exact ⟨same.1.symm, same.2.symm, rfl⟩
  · have sent : u = t.transfer run cmd := if_neg same
    rw [sent]
    exact ⟨rfl, rfl, rfl⟩

theorem tickSetpoint_link (s : State) : (tickSetpoint s).twist.linkCapstan = s.pace.run ∧
    (tickSetpoint s).twist.linkSpindle = (tickSetpoint s).twist.sCmd := by
  obtain ⟨capstan, spindle, rest⟩ := Twist.transferred s.pace.run _ { s.twist with sBase := _, sCmd := _ }
  exact ⟨capstan, spindle.trans (congrArg Twist.sCmd rest).symm⟩

theorem tickSetpoint_eff10 (s : State) : (tickSetpoint s).twist.eff10 = s.twist.eff10 := by
  unfold tickSetpoint; dsimp only; split_ifs <;> rfl
theorem tickSetpoint_windowOpen (s : State) : (tickSetpoint s).twist.windowOpen = s.twist.windowOpen := by
  unfold tickSetpoint; dsimp only; split_ifs <;> rfl

end Sys2Proof.Machine
end

section
/-!
PROOF. The regulation tick in each station state: its end, the ramp step, and the tick with the run pace ramped (R9,
R10, R38, R39, R130 to R136, R154, R155, R159; log entry 14).
-/

namespace Sys2Proof.Machine

open Sys2Proof.Safety

/-! ## The end of a tick: the pace period and the link -/

/-- What follows the ramp step in a tick. -/
def tickEnd (v : State) : State := tickSetpoint (tickPeriod v)

section TickEnd

variable {v : State}

theorem tickEnd_eff10 : (tickEnd v).twist.eff10 = v.twist.eff10 :=
  (tickSetpoint_eff10 _).trans (by rw [tickPeriod_twist])

theorem tickEnd_windowOpen : (tickEnd v).twist.windowOpen = v.twist.windowOpen :=
  (tickSetpoint_windowOpen _).trans (by rw [tickPeriod_twist])

theorem tickEnd_trim : (tickEnd v).twist.trim = v.twist.trim :=
  (tickSetpoint_trim _).trans (by rw [tickPeriod_twist])

theorem tickEnd_station : (tickEnd v).station = v.station := by simp [tickEnd]
theorem tickEnd_length : (tickEnd v).length = v.length := by simp [tickEnd]
theorem tickEnd_map : (tickEnd v).map = v.map := by simp [tickEnd]
theorem tickEnd_former : (tickEnd v).former = v.former := by simp [tickEnd]
theorem tickEnd_knot : (tickEnd v).knot = v.knot := by simp [tickEnd]
theorem tickEnd_start : (tickEnd v).start = v.start := by simp [tickEnd]
theorem tickEnd_banks : (tickEnd v).banks = v.banks := by simp [tickEnd]

variable (reports : v.station.state.reports = true)
include reports

theorem tickEnd_pace : (tickEnd v).pace =
    { v.pace with period := if v.pace.period = 1 then v.cfg.pacePeriod else v.pace.period - 1 } := by
  rw [tickEnd, tickSetpoint_pace, tickPeriod_eq reports]
  rfl

theorem tickEnd_ply : (tickEnd v).ply =
    if v.pace.period = 1 then { v.ply with paceWaiting := some ⟨buildReport v, 0⟩ } else v.ply := by
  rw [tickEnd, tickSetpoint_ply, tickPeriod_eq reports]
  rfl

theorem tickEnd_queue : (tickEnd v).ply.queue = v.ply.queue := by
  rw [tickEnd_ply reports]
  split <;> rfl

theorem tickEnd_link : (tickEnd v).twist.linkCapstan = v.pace.run ∧
    (tickEnd v).twist.linkSpindle = (tickEnd v).twist.sCmd := by
  obtain ⟨capstan, spindle⟩ := tickSetpoint_link (tickPeriod v)
  refine ⟨capstan.trans ?_, spindle⟩
  rw [tickPeriod_eq reports]
  rfl

/-- The commanded rate of a driven LAYING station, 0 for any other (R38). -/
theorem tickEnd_sCmd : (tickEnd v).twist.sCmd = if v.cfg.kind = .laying ∧ v.station.state.driven = true then
    commandRate v.cfg.smax (baseRate v.pace.run (v.twist.eff10.getD 0)) v.twist.trim else 0 := by
  rw [tickEnd, tickSetpoint_sCmd, tickPeriod_eq reports]
  exact if_congr (by rw [Bool.and_eq_true, isLaying_iff]; rfl) rfl rfl

end TickEnd

/-! ## The ramp step (R135, R154) -/

section Ramp

variable {s : State}

theorem tickRamp_of_run (run : s.station.state = .run) : tickRamp s =
    s.setPace { s.pace with run := rampStep s.cfg.rampUp s.cfg.rampDown s.pace.target s.pace.run } := by
  rw [tickRamp, run]

theorem tickRamp_of_easing (easing : s.station.state = .easing) (above : s.cfg.stopRamp < s.pace.run) : tickRamp s =
    s.setPace { s.pace with run := s.pace.run - s.cfg.stopRamp } := by
  rw [tickRamp, easing]
  exact if_neg (Nat.sub_ne_zero_of_lt above)

theorem tickRamp_of_stopping (easing : s.station.state = .easing) (low : s.pace.run ≤ s.cfg.stopRamp) : tickRamp s =
    enterStopped (s.setPace { s.pace with run := 0 }) := by
  have ended : s.pace.run - s.cfg.stopRamp = 0 := Nat.sub_eq_zero_of_le low
  rw [tickRamp, easing]
  dsimp only
  rw [ended]
  exact if_pos rfl

theorem tickRamp_elsewhere (other : s.station.state ≠ .run) (notEasing : s.station.state ≠ .easing) :
    tickRamp s = s := by
  unfold tickRamp
  split
  · exact absurd ‹_› other
  · exact absurd ‹_› notEasing
  · rfl

end Ramp

/-! ## A tick (R136) -/

/-- The run pace that a tick in RUN ramps to (R135). -/
def rampedRun (s : State) : Nat := rampStep s.cfg.rampUp s.cfg.rampDown (offered s).pace.target s.pace.run

section Tick

variable {s : State} (high : s.start.phase ≠ .inReset)
include high

theorem tick_of_reports (reports : s.station.state.reports = true) :
    tick s = tickEnd (tickRamp (offered (tickDwell s))) := by
  have same : (tickDwell s).station.state.reports = true := by rw [(tickDwell_ticked s).rest]; exact reports
  rw [tick, if_neg high, tickPace, if_pos same]
  rfl

theorem tick_of_run (run : s.station.state = .run) : tick s = tickEnd (paced (rampedRun s) (tickDwell s)) := by
  have same : (offered (tickDwell s)).station.state = .run := by rw [(tickDwell_ticked s).rest]; exact run
  have ramped : rampedRun (tickDwell s) = rampedRun s := by rw [(tickDwell_ticked s).rest]; rfl
  rw [tick_of_reports high (by rw [run]; rfl), tickRamp_of_run same, ← ramped]
  rfl

theorem tick_of_easing (easing : s.station.state = .easing) (above : s.cfg.stopRamp < s.pace.run) :
    tick s = tickEnd (paced (s.pace.run - s.cfg.stopRamp) s) := by
  rw [tick_of_reports high (by rw [easing]; rfl), tickDwell_still (.inl (by rw [easing]; decide)),
    tickRamp_of_easing (s := offered s) easing above]
  rfl

theorem tick_of_stopping (easing : s.station.state = .easing) (low : s.pace.run ≤ s.cfg.stopRamp) :
    tick s = tickEnd (enterStopped (paced 0 s)) := by
  rw [tick_of_reports high (by rw [easing]; rfl), tickDwell_still (.inl (by rw [easing]; decide)),
    tickRamp_of_stopping (s := offered s) easing low]
  rfl

theorem tick_of_standing (reports : s.station.state.reports = true) (other : s.station.state ≠ .run)
    (notEasing : s.station.state ≠ .easing) : tick s = tickEnd (paced s.pace.run s) := by
  rw [tick_of_reports high reports, tickDwell_still (.inl other), tickRamp_elsewhere (s := offered s) other notEasing]
  rfl

/-- In START and HELD the pace block takes no tick. -/
theorem tick_of_silent (silent : s.station.state.reports = false) (other : s.station.state ≠ .run) :
    tick s = tickSetpoint s := by
  rw [tick, if_neg high, tickDwell_still (.inl other), tickPace, if_neg (by rw [silent]; exact Bool.false_ne_true)]

end Tick

/-! ## What a tick makes of the pace block -/

section Kept

variable (r : Nat) (s : State)

theorem tickEnd_paced_eff10 : (tickEnd (paced r s)).twist.eff10 = s.twist.eff10 := tickEnd_eff10
theorem tickEnd_paced_trim : (tickEnd (paced r s)).twist.trim = s.twist.trim := tickEnd_trim
theorem tickEnd_paced_station : (tickEnd (paced r s)).station = s.station := tickEnd_station
theorem tickEnd_paced_length : (tickEnd (paced r s)).length = s.length := tickEnd_length
theorem tickEnd_paced_map : (tickEnd (paced r s)).map = s.map := tickEnd_map
theorem tickEnd_paced_former : (tickEnd (paced r s)).former = s.former := tickEnd_former
theorem tickEnd_paced_knot : (tickEnd (paced r s)).knot = s.knot := tickEnd_knot
theorem tickEnd_paced_start : (tickEnd (paced r s)).start = s.start := tickEnd_start
theorem tickEnd_paced_banks : (tickEnd (paced r s)).banks = s.banks := tickEnd_banks

end Kept

theorem tickEnd_paced_queue {s : State} (reports : s.station.state.reports = true) (r : Nat) :
    (tickEnd (paced r s)).ply.queue = s.ply.queue := tickEnd_queue (v := paced r s) reports

section Steady

variable {s d : State} (ticked : DwellTicked s d) (reports : s.station.state.reports = true) (r : Nat)
include ticked reports

theorem paced_reports : (paced r d).station.state.reports = true := by
  rw [← reports, ← ticked.station]
  rfl

theorem tickEnd_paced_pace : (tickEnd (paced r d)).pace = { (paced r s).pace with
    period := if s.pace.period = 1 then s.cfg.pacePeriod else s.pace.period - 1 } := by
  have same : (paced r d).pace = (paced r s).pace := by rw [ticked.rest]; rfl
  have cfg : (paced r d).cfg = s.cfg := cfg_congr ticked.start
  rw [tickEnd_pace (paced_reports ticked reports r), same, cfg]
  rfl

theorem tickEnd_paced_run : (tickEnd (paced r d)).pace.run = r := by rw [tickEnd_paced_pace ticked reports]; rfl

theorem tickEnd_paced_target : (tickEnd (paced r d)).pace.target = (offered s).pace.target := by
  rw [tickEnd_paced_pace ticked reports]
  rfl

/-- The link holds the run pace of the tick (R39). -/
theorem tickEnd_paced_linkCapstan : (tickEnd (paced r d)).twist.linkCapstan = (tickEnd (paced r d)).pace.run :=
  (tickEnd_link (paced_reports ticked reports r)).1.trans (tickEnd_paced_run ticked reports r).symm

theorem tickEnd_paced_linkSpindle : (tickEnd (paced r d)).twist.linkSpindle = (tickEnd (paced r d)).twist.sCmd :=
  (tickEnd_link (paced_reports ticked reports r)).2

theorem tickEnd_paced_offers : OffersFormed s (tickEnd (paced r d)) := by
  rw [OffersFormed, tickEnd_paced_pace ticked reports]
  exact paced_offers r s

theorem tickEnd_paced_period : PeriodTicked s (tickEnd (paced r d)) := by
  have counted : (paced r d).pace.period = s.pace.period := by rw [ticked.rest]; rfl
  rw [PeriodTicked, tickEnd_paced_pace ticked reports, tickEnd_ply (paced_reports ticked reports r), counted]
  refine ⟨fun early => ?_, fun last => ?_⟩
  · rw [if_neg early, if_neg early]
    exact ⟨rfl, ticked.paceWaiting⟩
  · rw [if_pos last, if_pos last]
    refine ⟨rfl, buildReport (paced r d), rfl, congrArg Station.state ticked.station, rfl,
      congrArg Twist.ownOffer ticked.twist, ?_, ?_, congrArg (· / 1000) ticked.acc⟩
    · rw [ticked.rest]; rfl
    · rw [ticked.rest]; rfl

end Steady

end Sys2Proof.Machine
end

section
/-!
PROOF. The obligations about the regulation tick: the tick in RUN, in EASING above the stop ramp step and at it, and
elsewhere (R9, R10, R38, R39, R130 to R136, R154, R155, R159; log entry 14).
-/

namespace Sys2Proof.Machine

open Sys2Proof.Safety

theorem dwellTicked_refl (s : State) : DwellTicked s s := ⟨rfl, rfl, rfl⟩

theorem offered_target_of_run {s : State} (run : s.station.state = .run) :
    (offered s).pace.target = leastOf s.twist.ownOffer
      ((s.pace.listen.map ListenEntry.tick).toList.filter (fun e => e.status == .peer)) := by
  rw [← mapTable_eq_map]
  exact if_pos run

theorem offered_target_elsewhere {s : State} (other : s.station.state ≠ .run) : (offered s).pace.target = 0 :=
  if_neg other

/-! ## The tick that stops the station (R154, R155) -/

/-- A slot refreshed just before the period falls: the report stands, and the period has fallen once (log entry 14). -/
theorem tickEnd_refreshed {x : State} (reports : x.station.state.reports = true) :
    (tickEnd (refreshPace x)).pace = { x.pace with
      period := if x.cfg.pacePeriod = 1 then 1 else x.cfg.pacePeriod - 1 } ∧
    (tickEnd (refreshPace x)).ply.paceWaiting = some ⟨buildReport x, 0⟩ := by
  have refreshed := refreshPace_of_reports reports
  have still : (refreshPace x).station.state.reports = true := by rw [refreshed]; exact reports
  rw [tickEnd_pace still, tickEnd_ply still, refreshed]
  refine ⟨?_, ?_⟩
  · change { x.pace with period := if x.cfg.pacePeriod = 1 then x.cfg.pacePeriod else x.cfg.pacePeriod - 1 } = _
    split_ifs with last <;> simp [last]
  · split <;> rfl

/-- The tick in EASING that takes the run pace to 0, with the station it halts. -/
theorem tick_stops {s : State} (finished : s.start.phase = .over) (easing : s.station.state = .easing)
    (low : s.pace.run ≤ s.cfg.stopRamp) : ∃ x, tick s = tickEnd (refreshPace x) ∧
      Halted (stilled (paced 0 s)) (s.cfg.kind = .laying) (s.cfg.kind = .netting) x := by
  obtain ⟨x, entered, halted⟩ := enterStopped_halted (paced 0 s)
  exact ⟨x, by rw [tick_of_stopping (by rw [finished]; decide) easing low, entered], halted⟩

section Stopping

variable {s x : State} {laying netting : Prop} (halted : Halted (stilled (paced 0 s)) laying netting x)
include halted

theorem Halted.reports : x.station.state.reports = true := by rw [halted.state]; rfl

theorem Halted.cfg_eq : x.cfg = s.cfg := cfg_congr (halted.start.trans (by simp [stilled, paced, offered]))

theorem Halted.pace_eq : x.pace = (paced 0 s).pace := halted.pace

theorem Halted.length_eq : x.length = { s.length with dwelling := false } := by
  rw [halted.length]
  exact clearDwell_length _

/-- The report that announces STOPPED (R130). -/
theorem Halted.report : (buildReport x).state = .stopped ∧ (buildReport x).runPace = 0 ∧
    (buildReport x).position = s.length.acc / 1000 := by
  refine ⟨halted.state, congrArg Pace.run halted.pace_eq, ?_⟩
  exact congrArg (fun l => l.acc / 1000) halted.length_eq

end Stopping

section Stopped

variable {s x : State} {laying netting : Prop} (halted : Halted (stilled (paced 0 s)) laying netting x)
include halted

theorem Halted.tickEnd_run (low : s.pace.run ≤ s.cfg.stopRamp) :
    (tickEnd (refreshPace x)).pace.run = s.pace.run - s.cfg.stopRamp := by
  obtain ⟨pace, -⟩ := tickEnd_refreshed halted.reports
  rw [pace, Nat.sub_eq_zero_of_le low]
  exact congrArg Pace.run halted.pace_eq

theorem Halted.tickEnd_target (other : s.station.state ≠ .run) : (tickEnd (refreshPace x)).pace.target = 0 := by
  obtain ⟨pace, -⟩ := tickEnd_refreshed halted.reports
  rw [pace]
  exact (congrArg Pace.target halted.pace_eq).trans (offered_target_elsewhere other)

theorem Halted.tickEnd_links :
    (tickEnd (refreshPace x)).twist.linkCapstan = (tickEnd (refreshPace x)).pace.run ∧
    (tickEnd (refreshPace x)).twist.linkSpindle = (tickEnd (refreshPace x)).twist.sCmd := by
  have still : (refreshPace x).station.state.reports = true := by rw [refreshPace_station]; exact halted.reports
  obtain ⟨capstan, spindle⟩ := tickEnd_link still
  exact ⟨by rw [capstan, tickEnd_pace still], spindle⟩

theorem Halted.tickEnd_length_eq : (tickEnd (refreshPace x)).length = { s.length with dwelling := false } := by
  rw [tickEnd_length, refreshPace_length, halted.length_eq]

theorem Halted.tickEnd_offers : OffersFormed s (tickEnd (refreshPace x)) := by
  obtain ⟨pace, -⟩ := tickEnd_refreshed halted.reports
  rw [OffersFormed, pace, halted.pace_eq]
  exact paced_offers 0 s

end Stopped

/-! ## The dwell countdown of a tick in RUN (R9, R10) -/

section Dwell

variable {s : State} (r : Nat)

theorem tickEnd_dwell_still (still : s.length.dwelling = true ∨ s.length.dwellCount = 0) :
    (tickEnd (paced r (tickDwell s))).length = s.length ∧ (tickEnd (paced r (tickDwell s))).map = s.map := by
  rw [tickEnd_paced_length, tickEnd_paced_map, tickDwell_still (.inr still)]
  exact ⟨rfl, rfl⟩

variable (run : s.station.state = .run)
include run

theorem tickEnd_dwell_counts (awake : s.length.dwelling = false) (counts : 1 < s.length.dwellCount) :
    (tickEnd (paced r (tickDwell s))).length = { s.length with dwellCount := s.length.dwellCount - 1 } ∧
      (tickEnd (paced r (tickDwell s))).map = s.map := by
  rw [tickEnd_paced_length, tickEnd_paced_map, tickDwell_counts run awake counts]
  exact ⟨rfl, rfl⟩

theorem tickEnd_dwell_begins (awake : s.length.dwelling = false) (last : s.length.dwellCount = 1) :
    ∃ u, exec .dwellStart s = .next u ∧ (tickEnd (paced r (tickDwell s))).length = u.length ∧
      (tickEnd (paced r (tickDwell s))).map = u.map ∧ (tickEnd (paced r (tickDwell s))).ply.queue = u.ply.queue ∧
      (tickEnd (paced r (tickDwell s))).length.dwelling = true ∧
      (tickEnd (paced r (tickDwell s))).length.dwellCount = 0 := by
  obtain ⟨begun, length⟩ := beginDwell_ticked run awake
  have reports : (beginDwell s).station.state.reports = true := by rw [begun.station, run]; rfl
  rw [tickDwell_begins run awake last, tickEnd_paced_length, tickEnd_paced_map, tickEnd_paced_queue reports]
  exact ⟨beginDwell s, rfl, rfl, rfl, rfl, by rw [length]; rfl, by rw [length]; rfl⟩

end Dwell

/-! ## The commanded rate of a tick in RUN (R38) -/

theorem tickEnd_sCmd_of_run {s : State} (run : s.station.state = .run) (r : Nat) :
    (tickEnd (paced r (tickDwell s))).twist.sCmd = if s.cfg.kind = .laying then
      commandRate s.cfg.smax (baseRate (tickEnd (paced r (tickDwell s))).pace.run (s.twist.eff10.getD 0)) s.twist.trim
    else 0 := by
  have reports : s.station.state.reports = true := by rw [run]; rfl
  have ticked := tickDwell_ticked s
  have cfg : (paced r (tickDwell s)).cfg = s.cfg := cfg_congr ticked.start
  have twist : (paced r (tickDwell s)).twist = s.twist := ticked.twist
  have driven : (paced r (tickDwell s)).station.state.driven = true := by
    rw [← show s.station.state.driven = true by rw [run]; rfl, ← ticked.station]
    rfl
  rw [tickEnd_sCmd (paced_reports ticked reports r), tickEnd_paced_pace ticked reports, cfg, twist, driven]
  exact if_congr (and_iff_left rfl) rfl rfl

/-! ## The obligations -/

/-- Settles O28: above the stop ramp step the tick goes on easing, and at it `tick_stops`. -/
theorem tickInEasingRampsDownAndStops : Obligations.TickInEasingRampsDownAndStops := by
  intro s easing finished
  have reports : s.station.state.reports = true := by rw [easing]; rfl
  have other : s.station.state ≠ .run := by rw [easing]; decide
  rcases lt_or_ge s.cfg.stopRamp s.pace.run with above | low
  · have itself := dwellTicked_refl s
    refine ⟨_, congrArg Host.Outcome.next (tick_of_easing (by rw [finished]; decide) easing above),
      tickEnd_paced_run itself reports _,
      (tickEnd_paced_target itself reports _).trans (offered_target_elsewhere other),
      tickEnd_paced_linkCapstan itself reports _, congrArg Length.acc tickEnd_length, ?_⟩
    rw [if_neg (not_le.mpr above), tickEnd_paced_station, tickEnd_paced_map]
    exact ⟨easing, rfl, rfl⟩
  · obtain ⟨x, ticked, halted⟩ := tick_stops finished easing low
    refine ⟨_, congrArg Host.Outcome.next ticked, halted.tickEnd_run low, halted.tickEnd_target other,
      halted.tickEnd_links.1, by rw [halted.tickEnd_length_eq], ?_⟩
    rw [if_pos low, tickEnd_station, refreshPace_station, halted.tickEnd_length_eq, tickEnd_windowOpen,
      refreshPace_twist, tickEnd_knot, refreshPace_knot]
    exact ⟨halted.state, halted.den, rfl, halted.noWindow, halted.noRow⟩

/-- Settles O27: the tick by the state it is taken in, each the end of a tick on the offers formed. -/
theorem tickInRunRampsTowardTheTarget : Obligations.TickInRunRampsTowardTheTarget := by
  intro s counted listen peers least offers period
  refine ⟨fun run finished => ?run, fun easing finished => ?easing, fun stands finished => ?stands,
    fun silent high => ?silent⟩
  case run =>
    have reports : s.station.state.reports = true := by rw [run]; rfl
    have ticked := tickDwell_ticked s
    have target := tickEnd_paced_target ticked reports (rampedRun s)
    refine ⟨_, congrArg Host.Outcome.next (tick_of_run (by rw [finished]; decide) run),
      tickEnd_paced_offers ticked reports _, tickEnd_paced_period ticked reports _,
      target.trans (offered_target_of_run run), ?ramp, ?state, ?locals, ?acc,
      tickEnd_paced_linkCapstan ticked reports _, tickEnd_paced_linkSpindle ticked reports _, ?trim, ?eff10, ?sCmd, ?still,
      ?counts, ?begins, (tickEnd_paced_start _ _).trans ticked.start,
      (tickEnd_paced_banks _ _).trans ticked.banks⟩
    case ramp =>
      rw [tickEnd_paced_run ticked reports, target]
      rfl
    case acc => rw [tickEnd_paced_length]; exact ticked.acc
    case state => rw [tickEnd_paced_station, ticked.station, run]
    case locals => rw [tickEnd_paced_station, ticked.station]
    case trim => rw [tickEnd_paced_trim, ticked.twist]
    case eff10 => rw [tickEnd_paced_eff10, ticked.twist]
    case sCmd => exact tickEnd_sCmd_of_run run (rampedRun s)
    case still => exact tickEnd_dwell_still _
    case counts => exact tickEnd_dwell_counts _ run
    case begins => exact tickEnd_dwell_begins _ run
  case easing =>
    have reports : s.station.state.reports = true := by rw [easing]; rfl
    have other : s.station.state ≠ .run := by rw [easing]; decide
    rcases lt_or_ge s.cfg.stopRamp s.pace.run with above | low
    · have itself := dwellTicked_refl s
      exact ⟨_, congrArg Host.Outcome.next (tick_of_easing (by rw [finished]; decide) easing above),
        tickEnd_paced_offers itself reports _,
        (tickEnd_paced_target itself reports _).trans (offered_target_elsewhere other),
        tickEnd_paced_run itself reports _, tickEnd_paced_linkCapstan itself reports _,
        tickEnd_paced_linkSpindle itself reports _,
        fun _ => ⟨tickEnd_paced_period itself reports _, tickEnd_paced_station _ _, tickEnd_paced_map _ _,
          tickEnd_paced_length _ _⟩,
        fun low => absurd above (not_lt.mpr low)⟩
    · obtain ⟨x, ticked, halted⟩ := tick_stops finished easing low
      obtain ⟨pace, waiting⟩ := tickEnd_refreshed halted.reports
      obtain ⟨capstan, spindle⟩ := halted.tickEnd_links
      obtain ⟨state, still, position⟩ := halted.report
      refine ⟨_, congrArg Host.Outcome.next ticked, halted.tickEnd_offers, halted.tickEnd_target other,
        halted.tickEnd_run low, capstan, spindle, fun above => absurd above (not_lt.mpr low),
        fun _ => ⟨?_, ?_, buildReport x, waiting, state, still, ?_, ?_, position⟩⟩
      · rw [tickEnd_station, refreshPace_station, halted.state]
      · rw [pace, halted.cfg_eq]
      · rw [pace]; rfl
      · rw [pace]; rfl
  case stands =>
    have other : s.station.state ≠ .run := by rcases stands with h | h | h <;> rw [h] <;> decide
    have notEasing : s.station.state ≠ .easing := by rcases stands with h | h | h <;> rw [h] <;> decide
    have reports : s.station.state.reports = true := by rcases stands with h | h | h <;> rw [h] <;> rfl
    have still : s.station.state.driven = false := by rcases stands with h | h | h <;> rw [h] <;> rfl
    have itself := dwellTicked_refl s
    have ran := tickEnd_paced_run itself reports s.pace.run
    have rate : (tickEnd (paced s.pace.run s)).twist.sCmd = 0 := by
      rw [tickEnd_sCmd (v := paced s.pace.run s) reports]
      exact if_neg fun driven => Bool.false_ne_true (still.symm.trans driven.2)
    exact ⟨_, congrArg Host.Outcome.next (tick_of_standing (by rw [finished]; decide) reports other notEasing),
      tickEnd_paced_offers itself reports _, tickEnd_paced_period itself reports _,
      (tickEnd_paced_target itself reports _).trans (offered_target_elsewhere other), ran, rate,
      (tickEnd_paced_linkCapstan itself reports _).trans ran, (tickEnd_paced_linkSpindle itself reports _).trans rate,
      tickEnd_paced_station _ _, tickEnd_paced_length _ _, tickEnd_paced_map _ _, tickEnd_paced_former _ _,
      tickEnd_paced_knot _ _, tickEnd_paced_start _ _, tickEnd_paced_banks _ _, tickEnd_paced_queue reports _⟩
  case silent =>
    have other : s.station.state ≠ .run := by rcases silent with h | h <;> rw [h] <;> decide
    have reports : s.station.state.reports = false := by rcases silent with h | h <;> rw [h] <;> rfl
    exact ⟨_, congrArg Host.Outcome.next (tick_of_silent high reports other), tickSetpoint_pace s,
      tickSetpoint_station s, tickSetpoint_ply s, tickSetpoint_length s⟩

end Sys2Proof.Machine
end
section
/-!
PROOF. What the laws of station control, of the halt records and of the lists' capacities read of a state, and the
properties that outlast every event of the run map and the package former: a property that a change elsewhere, a frame
queued, a SOFT cause raised and a cut list revised by the rules of R94 keep.
-/

namespace Sys2Proof.Machine

open Sys2Proof.Safety

/-! ## What the laws read -/

/-- The configuration, the causes with what shows them, the BRK pin, the station state, the cut list, the pending
arrivals and the transmit queue with its drops stand in `t` as in `s`. -/
structure SameControl (s t : State) : Prop where
  start : t.start = s.start
  state : t.station.state = s.station.state
  locals : t.station.locals = s.station.locals
  peers : t.station.peers = s.station.peers
  firstCause : t.station.firstCause = s.station.firstCause
  den : t.station.den = s.station.den
  alm : t.station.alm = s.station.alm
  pin : t.station.brkActive = s.station.brkActive
  cuts : t.former.cuts = s.former.cuts
  arrivals : t.pace.arrivals = s.pace.arrivals
  queue : t.ply.queue = s.ply.queue
  held : t.ply.placeHeld = s.ply.placeHeld
  drops : t.ply.queueDrops = s.ply.queueDrops

theorem SameControl.of_station {s t : State} (station : t.station = s.station)
    (same : t.start = s.start ∧ t.former.cuts = s.former.cuts ∧ t.pace.arrivals = s.pace.arrivals ∧
      t.ply.queue = s.ply.queue ∧ t.ply.placeHeld = s.ply.placeHeld ∧ t.ply.queueDrops = s.ply.queueDrops) :
    SameControl s t := by
  obtain ⟨start, cuts, arrivals, queue, held, drops⟩ := same
  exact ⟨start, by rw [station], by rw [station], by rw [station], by rw [station], by rw [station], by rw [station],
    by rw [station], cuts, arrivals, queue, held, drops⟩

theorem SameControl.of_blocks {s t : State} (same : t.start = s.start ∧ t.station = s.station ∧
    t.former = s.former ∧ t.pace = s.pace ∧ t.ply = s.ply) : SameControl s t := by
  obtain ⟨start, station, former, pace, ply⟩ := same
  exact .of_station station ⟨start, by rw [former], by rw [pace], by rw [ply], by rw [ply], by rw [ply]⟩

@[simp] theorem refreshPace_placeHeld (s : State) : (refreshPace s).ply.placeHeld = s.ply.placeHeld := by
  unfold refreshPace; split <;> simp

@[simp] theorem refreshPace_queueDrops (s : State) : (refreshPace s).ply.queueDrops = s.ply.queueDrops := by
  unfold refreshPace; split <;> simp

theorem refreshPace_sameControl (s : State) : SameControl s (refreshPace s) := .of_station (by simp) (by simp)

theorem makeRoom_cuts (f : Former) : f.makeRoom.cuts = f.cuts := by
  unfold Former.makeRoom; (repeat' split) <;> rfl

/-! ## What may become of the cut list (R94) -/

/-- The cut list after one act of the former: cuts taken out, a cut placed last of all while there is room, a cut
revised in its place in the order of placement, or marks set on the cuts as they stand. -/
inductive Recut (l : List Cut) : List Cut → Prop
  | fewer {l' : List Cut} (sub : l'.Sublist l) : Recut l l'
  | placed (c : Cut) (room : l.length < Config.cutCapacity) (last : c.placed = nextPlacement l) :
      Recut l (insertCut c l)
  | moved {pre post : List Cut} {y : Cut} (c : Cut) (old : l = pre ++ y :: post) (stands : c.placed = y.placed) :
      Recut l (insertCut c (pre ++ post))
  | marked (f : Cut → Cut) (stands : ∀ c, (f c).position = c.position ∧ (f c).placed = c.placed) :
      Recut l (l.map f)

theorem Recut.refl (l : List Cut) : Recut l l := .fewer (List.Sublist.refl l)

theorem Recut.filter (l : List Cut) (p : Cut → Bool) : Recut l (l.filter p) := .fewer List.filter_sublist

/-- A revised cut keeps its place in the order of placement (R94). -/
theorem Recut.revise {f : Cut → Cut} (stands : ∀ c, (f c).placed = c.placed) (i : Nat) (l : List Cut) :
    Recut l (reviseCut f i l) := by
  unfold reviseCut
  split
  · rename_i c found
    obtain ⟨short, rfl⟩ := List.getElem?_eq_some_iff.mp found
    rw [List.eraseIdx_eq_take_drop_succ]
    refine .moved (y := l[i]) _ ?_ (stands _)
    rw [List.getElem_cons_drop, List.take_append_drop]
  · exact .refl l

theorem takeFirst_sublist {α : Type} {p : α → Bool} {l rest : List α} {y : α}
    (taken : takeFirst p l = some (y, rest)) : rest.Sublist l := by
  obtain ⟨pre, post, rfl, rfl, -, -⟩ := takeFirst_some taken
  exact (List.sublist_cons_self y post).append_left pre

/-! ## Properties that the events of the run map and the former keep -/

/-- A change elsewhere, a frame queued, a SOFT cause raised, the cut list revised by R94 and the pending arrivals
changed within their capacity keep `P`. -/
structure EventKeeps (P : State → Prop) : Prop where
  frame : ∀ {s t}, P s → SameControl s t → P t
  queue : ∀ {s} b, P s → P (enqueue b s)
  raise : ∀ {s} {c : LocalCause}, c.level = .soft → P s → P (raiseSoft c s)
  recut : ∀ {s l}, P s → Recut s.former.cuts l → P (setCuts l s)
  arrive : ∀ {s} (p : Pace), P s →
    (s.pace.arrivals.length ≤ Config.arrivalCapacity → p.arrivals.length ≤ Config.arrivalCapacity) →
      P (s.setPace p)

namespace EventKeeps

variable {P : State → Prop} (h : EventKeeps P) {s : State} (holds : P s)
include h holds

/-! ## Blocks that the laws do not read -/

theorem setLength (b : Length) : P (s.setLength b) := h.frame holds (.of_blocks (by simp))
theorem setMarks (b : Marks) : P (s.setMarks b) := h.frame holds (.of_blocks (by simp))
theorem setTwist (b : Twist) : P (s.setTwist b) := h.frame holds (.of_blocks (by simp))
theorem setKnot (b : Knot) : P (s.setKnot b) := h.frame holds (.of_blocks (by simp))
theorem setMap (b : RunMap) : P (s.setMap b) := h.frame holds (.of_blocks (by simp))
theorem setBanks (b : Vector Bank 4) : P (s.setBanks b) := h.frame holds (.of_blocks (by simp))
theorem setBank (k : Nat) (b : Bank) : P (s.setBank k b) := h.frame holds (.of_blocks (by simp))
theorem setPace (p : Pace) (same : p.arrivals = s.pace.arrivals) : P (s.setPace p) :=
  h.arrive p holds fun fits => same ▸ fits
theorem setFormer (f : Former) (same : f.cuts = s.former.cuts) : P (s.setFormer f) :=
  h.frame holds (.of_station rfl ⟨rfl, same, rfl, rfl, rfl, rfl⟩)
theorem refreshPace : P (Machine.refreshPace s) := h.frame holds (refreshPace_sameControl s)
theorem retarget : P (Machine.retarget s) := h.frame holds (.of_blocks (by simp))
theorem openWindow : P (Machine.openWindow s) := h.frame holds (.of_blocks (by simp))
theorem mergeLocal (k : EntryKind) : P (Machine.mergeLocal k s) := h.frame holds (.of_blocks (by simp))
theorem countDropped : P (Machine.countDropped s) := h.frame holds (.of_blocks (by simp))
theorem refuseCut : P (Machine.refuseCut s) := h.setFormer holds _ rfl
theorem mapOpen (f : PackageRecord → PackageRecord) : P (Machine.mapOpen f s) := h.setFormer holds _ rfl

/-! ## The map (R75 to R81) -/

theorem handOff (e : MapEntry) : P (Machine.handOff e s) :=
  foldl_keeps_of (P := P) (fun _ _ held => h.queue _ held) _ holds

theorem offerRaw (e : MapEntry) : P (Machine.offerRaw e s).1 := by
  have placed (e : MapEntry) (l : List MapEntry) (b : Bool) : P (placeEntry e l b s) := by
    unfold placeEntry
    dsimp only
    split
    · exact h.setMap holds _
    · exact h.handOff (h.setMap holds _) _
  unfold Machine.offerRaw
  dsimp only
  split
  · exact placed _ _ _
  · exact placed _ _ _
  · exact h.countDropped holds
  · exact h.raise rfl (h.countDropped holds)

theorem offerLocal (k : EntryKind) : P (Machine.offerLocal k s).1 := by
  have forgotten : P (forgetLocal k s) := h.setMap holds _
  unfold Machine.offerLocal
  dsimp only
  split
  · exact h.offerRaw forgotten _
  · exact h.offerRaw forgotten _
  · exact h.offerRaw holds _

theorem closeEntry (k : EntryKind) : P (Machine.closeEntry k s).1 := by
  unfold Machine.closeEntry
  split
  · exact holds
  · exact h.handOff (h.setMap holds _) _

theorem runAtMap (kind : EntryKind) (start count threshold length : Nat) (now run : Bool) :
    P (Machine.runAtMap kind start count threshold length now run s).1 := by
  unfold Machine.runAtMap
  split
  · exact h.frame holds (.of_blocks (by simp))
  · split
    · exact h.offerRaw holds _
    · exact holds

theorem closeAsHandover (kind : EntryKind) : P (Machine.closeAsHandover kind s).1 := h.closeEntry holds kind

theorem closeKnotEntries : P (Machine.closeKnotEntries s).1 := h.closeEntry (h.closeEntry holds .knot) .mesh

theorem endTwistRun : P (Machine.endTwistRun s).1 := h.closeEntry (h.setTwist holds _) .twist

/-! ## The bank switch (R124) -/

theorem switchTwist (old : Nat) : P (Machine.switchTwist old s).1 := by
  have ended : P (Machine.endTwistRun (s.setTwist s.twist.discardWindow)).1 := h.endTwistRun (h.setTwist holds _)
  unfold Machine.switchTwist
  split
  · dsimp only
    split
    · exact h.openWindow (h.retarget (h.setTwist ended _))
    · exact h.retarget (h.setTwist ended _)
  · exact holds

theorem switchKnot : P (Machine.switchKnot s).1 := by
  unfold Machine.switchKnot
  split
  · exact h.closeKnotEntries (h.setKnot holds _)
  · exact holds

theorem switchBank (k position : Nat) : P (Machine.switchBank k position s).1 := by
  have switched : P (switchStates k s) := h.frame holds (.of_blocks (by simp))
  have knotted := h.switchKnot (h.switchTwist (h.offerRaw switched (.offerOf .change position)) s.twistPage.target10)
  unfold Machine.switchBank
  dsimp only
  split
  · exact knotted
  · exact h.setMarks knotted _

theorem switchStaged (position : Nat) : P (Machine.switchStaged position s).1 := by
  unfold Machine.switchStaged
  split
  · exact h.switchBank holds _ _
  · exact holds

/-! ## The close and the opening of a package (R91, R106 to R110) -/

theorem filterCuts (p : Cut → Bool) : P (setCuts (s.former.cuts.filter p) s) := h.recut holds (.filter _ p)

theorem closeRecord (k : Nat) (r : CloseReason) (p : PackageRecord) : P (Machine.closeRecord k r p s) := by
  have report (s : State) (r : PackageRecord) (holds : P s) : P (queueReport s r) := h.queue _ (h.setFormer holds _ rfl)
  have settled : P (setCuts (s.former.cuts.filter (fun c => !c.isPackageEnd))
      (s.setMap { s.map with entries := entriesAfter k s.map.entries })) := h.filterCuts (h.setMap holds _) _
  exact report _ _ (h.mapOpen (foldl_keeps_of report _ settled) _)

theorem openRecord (k extra : Nat) : P (Machine.openRecord k extra s) := by
  unfold Machine.openRecord
  dsimp only
  refine h.setMarks (h.setFormer holds _ ?_) _
  exact makeRoom_cuts s.former

/-! ## Placing, moving and planning, for what fires a cut (R94 to R104) -/

section Fires

variable {f : Fire} (fires : ∀ c k x s, P s → P (f c k x s))
include fires

theorem placeCut (c : Cut) (extra : Nat) : P (Machine.placeCut f c extra s) := by
  unfold Machine.placeCut
  split_ifs with due room
  · exact fires _ _ _ _ holds
  · exact h.recut holds (.placed _ room rfl)
  · exact h.refuseCut holds

/-- A cut of the list moves and keeps its place in the order of placement. -/
theorem moveCut {c y : Cut} {rest pre post : List Cut} (old : s.former.cuts = pre ++ y :: post)
    (left : rest = pre ++ post) (stands : c.placed = y.placed) : P (Machine.moveCut f c rest s) := by
  have sub : rest.Sublist s.former.cuts := by
    rw [old, left]
    exact (List.sublist_cons_self y post).append_left pre
  unfold Machine.moveCut
  split_ifs
  · exact fires _ _ _ _ (h.recut holds (.fewer sub))
  · rw [left]
    exact h.recut holds (.moved _ old stands)

theorem cutOut (e : MapEntry) (dropPlan : Bool) : P (Machine.cutOut f e dropPlan s).1 := by
  have extended (i c : Nat) (wait : Bool) : P (extendCut i c wait s) :=
    h.recut holds (.revise (f := fun x => { x.raise c with waiting := x.waiting || wait }.settle (xNow s) s.pos)
      (fun _ => rfl) i _)
  unfold Machine.cutOut
  split
  · exact holds
  · dsimp only
    split
    · exact extended _ _ _
    · exact extended _ _ _
    · exact h.refuseCut holds
    · split
      · exact h.placeCut (h.placeCut (h.filterCuts holds _) fires _ _) fires _ _
      · exact h.placeCut (h.mapOpen (h.filterCuts holds _) _) fires _ _

theorem planIfDue : P (Machine.planIfDue f s) := by
  unfold Machine.planIfDue
  split
  · exact holds
  · dsimp only
    split
    · split
      · exact h.placeCut holds fires _ _
      · split
        · exact h.cutOut holds fires _ _
        · exact h.placeCut (h.cutOut holds fires _ _) fires _ _
    · exact holds

theorem checkPlan : P (Machine.checkPlan f s) := by
  unfold Machine.checkPlan
  split
  · rename_i plan rest _ taken
    obtain ⟨pre, post, old, left, -, -⟩ := takeFirst_some taken
    dsimp only
    split
    · exact holds
    · split
      · exact h.moveCut holds fires old left rfl
      · exact h.cutOut holds fires _ _
  · exact holds

theorem retype : P (Machine.retype f s) := by
  unfold Machine.retype
  split
  · exact holds
  · dsimp only
    split
    · exact holds
    · split
      · exact h.recut (h.mapOpen holds _) (.filter _ _)
      · exact h.planIfDue (h.mapOpen holds _) fires

theorem joinLimit (e : MapEntry) : P (Machine.joinLimit f e s).1 := by
  unfold Machine.joinLimit
  split
  · exact holds
  · dsimp only
    split_ifs
    · exact h.placeCut (h.filterCuts holds _) fires _ _
    · exact h.cutOut holds fires _ _
    · exact holds

theorem changeCut (e : MapEntry) : P (Machine.changeCut f e s) := by
  unfold Machine.changeCut
  dsimp only
  split
  · exact h.placeCut holds fires _ _
  · split
    · rename_i taken
      exact h.placeCut (h.recut holds (.fewer (takeFirst_sublist taken))) fires _ _
    · exact h.refuseCut holds

/-! ## The events of the run map (R84) -/

theorem entryInserted (e : MapEntry) : P (Machine.entryInserted f e s) := by
  have cut : P (if e.severity == .major && cutsOutMajor s then (Machine.cutOut f e false s).1 else s) := by
    split
    · exact h.cutOut holds fires _ _
    · exact holds
  have limited {u : State} (cut : P u) :
      P (if e.kind == .join then Machine.joinLimit f e u else (u, false)).1 := by
    split
    · exact h.joinLimit cut fires _
    · exact cut
  have checked {r : State × Bool} (limited : P r.1) :
      P (if e.blocker && !r.2 then Machine.checkPlan f r.1 else r.1) := by
    split
    · exact h.checkPlan limited fires
    · exact limited
  unfold Machine.entryInserted
  split
  · dsimp only
    split
    · exact h.changeCut (checked (limited cut)) fires _
    · exact checked (limited cut)
  · exact holds

theorem entryUpgraded (e : MapEntry) : P (Machine.entryUpgraded f e s) := by
  unfold Machine.entryUpgraded
  split_ifs
  · exact h.checkPlan (h.cutOut holds fires _ _) fires
  · exact h.checkPlan holds fires
  · exact holds

theorem releaseCut (final : Nat) : P (Machine.releaseCut f final s) := by
  unfold Machine.releaseCut
  split
  · exact holds
  · split
    · exact holds
    · rename_i i _ _ c found
      obtain ⟨short, rfl⟩ := List.getElem?_eq_some_iff.mp found
      have old : s.former.cuts = s.former.cuts.take i ++ s.former.cuts[i] :: s.former.cuts.drop (i + 1) := by
        rw [List.getElem_cons_drop, List.take_append_drop]
      exact h.moveCut holds fires old (List.eraseIdx_eq_take_drop_succ _ _) rfl

theorem entryClosed (e : MapEntry) : P (Machine.entryClosed f s e) := by
  unfold Machine.entryClosed
  split
  · exact h.checkPlan (h.releaseCut holds fires _) fires
  · exact holds

end Fires

/-! ## Fires and the hand-overs (R84, R96) -/

omit holds in
theorem fireCut (n : Nat) (c : Cut) (k extra : Nat) (s : State) (holds : P s) : P (Machine.fireCut n c k extra s) := by
  induction n generalizing c k extra s with
  | zero => exact holds
  | succ n ih =>
    unfold Machine.fireCut
    split
    · exact holds
    · split
      · exact h.retype holds ih
      · rename_i p _ _
        have tested : P (testMarkAt (k - p.startPos) (s.setFormer { s.former with cutHigh := true })) :=
          h.frame (h.setFormer holds { s.former with cutHigh := true } rfl) (.of_blocks (by simp))
        have switched := h.switchStaged (h.closeRecord tested k c.closeReason p) k
        have opened := h.planIfDue (h.openRecord switched k extra) ih
        have told (s : State) (e : MapEntry) (holds : P s) : P (Machine.entryClosed (Machine.fireCut n) s e) :=
          h.entryClosed holds ih e
        dsimp only
        refine foldl_keeps_of told _ ?_
        split
        · exact h.raise rfl opened
        · exact opened

omit holds in
theorem fire (c : Cut) (k extra : Nat) (s : State) (holds : P s) : P (Machine.fire c k extra s) :=
  h.fireCut _ c k extra s holds

theorem tell (event : Handover) : P (Machine.tell s event) := by
  cases event with
  | inserted e => exact h.entryInserted holds h.fire e
  | upgraded e => exact h.entryUpgraded holds h.fire e
  | closed e => exact h.entryClosed holds h.fire e

theorem tellAll (events : List Handover) : P (Machine.tellAll events s) :=
  foldl_keeps_of (P := P) (fun _ event holds => h.tell holds event) events holds

omit holds in
theorem tellClosed {r : State × List MapEntry} (holds : P r.1) : P (Machine.tellClosed r) := h.tellAll holds _

theorem fireDue (n : Nat) : P (Machine.fireDue n s) := by
  induction n generalizing s with
  | zero => exact holds
  | succ n ih =>
    unfold Machine.fireDue
    split
    · exact holds
    · rename_i taken
      exact ih (h.fire _ _ _ _ (h.recut holds (.fewer (takeFirst_sublist taken))))

theorem formerPulse : P (Machine.formerPulse s) := by
  have firmed : P (firmCuts s) := h.recut holds (.marked _ fun _ => ⟨rfl, rfl⟩)
  unfold Machine.formerPulse
  split
  · exact h.planIfDue (h.fireDue firmed _) h.fire
  · exact holds

theorem startPackages : P (Machine.startPackages s) := by
  have emptied : P (s.setFormer { s.former with cuts := [], cutsRefused := 0 }) := by
    have cleared : P (setCuts [] s) := h.recut holds (.fewer (List.nil_sublist _))
    exact h.setFormer cleared { s.former with cuts := [], cutsRefused := 0 } rfl
  unfold Machine.startPackages
  split
  · exact h.planIfDue (h.openRecord emptied _ _) h.fire
  · exact holds

theorem closeAtEnd : P (Machine.closeAtEnd s) := by
  unfold Machine.closeAtEnd
  split
  · exact holds
  · exact h.recut (h.closeRecord holds _ _ _) (.fewer (List.nil_sublist _))

theorem offerEntry (e : MapEntry) : P (Machine.offerEntry e s).1 := by
  have offered := h.offerRaw holds e
  unfold Machine.offerEntry
  dsimp only
  split
  · exact h.entryInserted offered h.fire _
  · exact offered

theorem offerPoint (k : EntryKind) : P (Machine.offerPoint k s) := by
  have offered := h.offerLocal holds k
  unfold Machine.offerPoint
  dsimp only
  split
  · exact h.entryInserted offered h.fire _
  · exact offered

end EventKeeps

end Sys2Proof.Machine
end

section
/-!
PROOF. The same properties through the entry to STOPPED, pulses, strokes, points and the regulation tick, once they
outlast a local cause of either level and a HALT of a peer.
-/

namespace Sys2Proof.Machine

open Sys2Proof.Safety

theorem clearDwell_sameControl (s : State) : SameControl s (clearDwell s) := .of_blocks (by
  unfold clearDwell; split <;> simp)

namespace EventKeeps

variable {P : State → Prop} (h : EventKeeps P) {s : State} (holds : P s)
include h holds

/-! ## The entry to STOPPED once the station stands STOPPED (R155) -/

theorem stopTwist : P (Machine.stopTwist s) := by
  unfold Machine.stopTwist
  split
  · exact h.tellClosed (h.endTwistRun (h.setTwist holds _))
  · exact holds

theorem stopKnot : P (Machine.stopKnot s) := by
  unfold Machine.stopKnot
  split
  · exact h.tellClosed (h.closeKnotEntries (h.setKnot holds _))
  · exact holds

omit holds in
theorem enterStopped (entered : P (s.setStation (s.station.enter .stopped))) : P (Machine.enterStopped s) := by
  have off := h.frame entered (clearDwell_sameControl _)
  have stilled := h.setPace off { (clearDwell (s.setStation (s.station.enter .stopped))).pace with run := 0 } rfl
  have discarded := h.stopKnot (h.stopTwist stilled)
  unfold Machine.enterStopped
  dsimp only
  split
  · split
    · exact h.refreshPace (h.mergeLocal discarded _)
    · exact h.refreshPace (h.offerPoint discarded _)
  · exact h.refreshPace (h.offerPoint discarded _)

/-! ## Points, pulses and strokes -/

theorem writeDwell : P (Machine.writeDwell s) := by
  unfold Machine.writeDwell
  split
  · split
    · exact h.mergeLocal holds _
    · exact h.offerPoint holds _
  · exact h.offerPoint holds _

theorem writeJoin : P (Machine.writeJoin s) := by
  unfold Machine.writeJoin
  split
  · split
    · exact h.mergeLocal holds _
    · exact h.offerPoint holds _
  · exact h.offerPoint holds _

theorem beginDwell : P (Machine.beginDwell s) := by
  unfold Machine.beginDwell
  split
  · exact h.writeDwell (h.setLength holds _)
  · exact holds

theorem twistRunStep (c : WindowClass) : P (Machine.twistRunStep c s).1 := by
  have flagged (t : Twist) (start count threshold length : Nat) (now run : Bool) :=
    h.runAtMap (h.setTwist holds t) .twist start count threshold length now run
  unfold Machine.twistRunStep
  split
  · exact h.endTwistRun holds
  all_goals
    dsimp only
    split
    · exact h.raise rfl (flagged _ _ _ _ _ _ _)
    · exact flagged _ _ _ _ _ _ _

theorem closeWindow (ran : Bool) : P (Machine.closeWindow ran s) := by
  have evaluated : P (evaluatedWindow s).1 := h.twistRunStep (h.setTwist holds _) _
  have closed : P (closedWindow ran s) := by
    refine h.tellAll (h.openWindow (h.retarget ?_)) _
    split
    · exact h.setTwist evaluated _
    · exact evaluated
  rw [closeWindow_eq]
  split
  · exact closed
  · exact h.switchStaged closed _

theorem twistPulse (n : Nat) (ran : Bool) : P (Machine.twistPulse n ran s) := by
  unfold Machine.twistPulse
  split
  · dsimp only
    split
    · exact h.closeWindow (h.setTwist holds _) ran
    · exact h.setTwist holds _
  · exact holds

theorem closeRow : P (Machine.closeRow s) := by
  have knotted : P (knottedRow s).1 := by
    unfold knottedRow knotRunStep
    dsimp only
    split
    · have logged (k : Knot) (start count threshold length : Nat) (now run : Bool) :=
        h.runAtMap (h.setKnot holds k) .knot start count threshold length now run
      split
      · exact h.raise rfl (logged _ _ _ _ _ _ _)
      · exact logged _ _ _ _ _ _ _
    · exact h.closeAsHandover (h.setKnot holds _) _
  have meshed : P (meshedRow s).1 := by
    unfold meshedRow meshRunStep
    dsimp only
    split
    · exact h.runAtMap (h.setKnot knotted _) _ _ _ _ _ _ _
    · exact h.closeAsHandover (h.setKnot knotted _) _
  have told : P (toldRow s) := h.tellAll (h.setKnot meshed _) _
  rw [closeRow_eq]
  split
  · exact told
  · exact h.switchStaged told _

theorem offerArrival (a : Arrival) : P (Machine.offerArrival s a) := by
  unfold Machine.offerArrival
  split
  · exact h.countDropped holds
  · exact h.offerEntry holds _

/-- The records on their way come nearer, and none is added (R140 to R142). -/
theorem arrivalsPulse (n : Nat) : P (Machine.arrivalsPulse n s) := by
  unfold Machine.arrivalsPulse
  refine foldl_keeps_of (P := P) (fun _ a holds => h.offerArrival holds a) _ (h.arrive _ holds fun fits => ?_)
  have short : ((reduceArrivals n s).filter (fun a => decide (0 < a.remaining))).length ≤ s.pace.arrivals.length := by
    refine (List.length_filter_le _ _).trans ?_
    rw [reduceArrivals, (sortArrivals_perm _).length_eq, List.length_map]
  exact short.trans fits

/-- A record joins the list where there is room, or in the place of another (R140, R144). -/
theorem joinArrivals (a : Arrival) : P (Machine.joinArrivals a s) := by
  unfold Machine.joinArrivals
  split
  · rename_i room
    refine h.arrive _ holds fun _ => ?_
    rw [insertArrival_length]
    exact room
  · split
    · exact h.setPace holds _ rfl
    · split
      · rename_i rest dropped
        obtain ⟨⟨y, rest'⟩, taken, rfl⟩ := Option.map_eq_some_iff.mp dropped
        obtain ⟨pre, post, split, left, -, -⟩ := takeLast_some taken
        refine h.setPace (h.arrive { s.pace with arrivals := insertArrival a rest' } holds fun fits => ?_) _ rfl
        rw [insertArrival_length, left, List.length_append]
        rw [split, List.length_append, List.length_cons] at fits
        omega
      · exact h.raise rfl (h.setPace holds _ rfl)

theorem acceptHandoff (e : ListenEntry) (r : HandoffRead) : P (Machine.acceptHandoff e r s) := by
  have numbered : P (s.setPace { s.pace with nextAccept := s.pace.nextAccept + 1 }) := h.setPace holds _ rfl
  unfold Machine.acceptHandoff
  dsimp only
  split
  · exact h.offerArrival numbered _
  · exact h.joinArrivals numbered _

theorem closeSpan : P (Machine.closeSpan s) := by
  rw [closeSpan_eq]
  dsimp only
  generalize (if slipLimit s < slipOf s.length.la s.length.lb then s.length.badSpans + 1 else 0) = bad
  split
  · split
    · exact h.offerEntry (h.setLength holds _) _
    · exact h.raise rfl (h.setLength holds _)
  · exact h.setLength holds _

theorem slipPulse (n : Nat) : P (Machine.slipPulse n s) := by
  unfold Machine.slipPulse
  dsimp only
  split_ifs
  · exact holds
  · exact h.closeSpan (h.setLength holds _)
  · exact h.setLength holds _

theorem activePulse : P (Machine.activePulse s) := by
  have pulsed : P (dwellPulse s) := h.frame holds (.of_blocks (by
    unfold dwellPulse; split <;> simp))
  have moved : P (advance s.activeStep (dwellPulse s)) := by
    unfold advance
    dsimp only
    split
    · exact h.raise rfl (h.setLength pulsed _)
    · exact h.setLength pulsed _
  have retained : P (retain s.pos (advance s.activeStep (dwellPulse s))) := h.frame moved (.of_blocks (by simp))
  have formed := h.formerPulse (h.twistPulse retained s.activeStep (s.station.state == .run))
  have measured : P (beforeArrivals s) := h.frame formed (.of_blocks (by simp [beforeArrivals]))
  cases run : s.inRun
  · rwa [activePulse_outside run]
  · rw [activePulse_of_inRun run]
    exact h.slipPulse (h.arrivalsPulse measured _) _

theorem startBlocks (k : Nat) : P (Machine.startBlocks k s) := by
  have cleared : P (clearedBlocks k s) := by
    refine h.arrive (s := clearedBlocks k s |>.setPace s.pace) (clearedBlocks k s).pace ?_ fun _ => Nat.zero_le _
    exact h.frame holds (.of_blocks (by simp [clearedBlocks, banked]))
  rw [startBlocks_eq]
  split
  · exact h.startPackages cleared
  · exact h.setMarks cleared _

end EventKeeps

/-! ## Causes of either level -/

/-- Beside the events of the map and the former, a local cause of either level, a HALT of a peer, the end of the stop
ramp and a change of the BRK pin keep `P`. -/
structure ControlKeeps (P : State → Prop) : Prop extends EventKeeps P where
  raiseLocal : ∀ {s} c, P s → P (raiseLocal c s)
  takeHalt : ∀ {s} e r, P s → P (takeHalt e r s)
  stop : ∀ {s}, P s → s.station.state = .easing → P (s.setStation (s.station.enter .stopped))
  press : ∀ {s} active, P s → P (s.setStation { s.station with brkActive := active })

namespace ControlKeeps

variable {P : State → Prop} (h : ControlKeeps P) {s : State} (holds : P s)
include h holds

/-! ## The regulation tick -/

theorem tickDwell : P (Machine.tickDwell s) := by
  unfold Machine.tickDwell
  dsimp only
  split_ifs
  · exact h.beginDwell (h.setLength holds _)
  · exact h.setLength holds _
  · exact holds

theorem tickRamp : P (Machine.tickRamp s) := by
  unfold Machine.tickRamp
  split
  · exact h.setPace holds _ rfl
  · rename_i easing
    dsimp only
    split
    · exact h.enterStopped (h.stop (h.setPace holds _ rfl) easing)
    · exact h.setPace holds _ rfl
  · exact holds

theorem tickPeriod : P (Machine.tickPeriod s) := by
  unfold Machine.tickPeriod
  dsimp only
  split_ifs
  · exact h.refreshPace (h.setPace holds _ rfl)
  · exact h.setPace holds _ rfl
  · exact holds

theorem tickPace : P (Machine.tickPace s) := by
  unfold Machine.tickPace
  split
  · have counted : P (s.setPace { s.pace with listen := mapTable ListenEntry.tick s.pace.listen }) :=
      h.setPace holds _ rfl
    have offered : P (computeOffers (s.setPace { s.pace with listen := mapTable ListenEntry.tick s.pace.listen })) :=
      h.setPace counted _ rfl
    exact h.tickPeriod (h.tickRamp offered)
  · exact holds

theorem tick : P (Machine.tick s) := by
  unfold Machine.tick
  split
  · exact holds
  · exact h.setTwist (h.tickPace (h.tickDwell holds)) _

end ControlKeeps

end Sys2Proof.Machine
end

section
/-!
PROOF. The requests, the frames and the line's own events: from what holds before a command to what holds after it, for
every command but those of reset and START. What begins or ends a run and what empties the cause set may pass from the
one to the other at once; all else passes through what the events of a run keep.
-/

namespace Sys2Proof.Machine

open Sys2Proof.Safety

/-- `before` leads to `after` by way of `during`: GO, a removal of causes, run start and END lead from the one to the
other themselves, and every other part of a request keeps `during`. -/
structure Performs (before during after : State → Prop) : Prop where
  keeps : ControlKeeps during
  begins : ∀ {s}, before s → during s
  ends : ∀ {s}, during s → after s
  frameBefore : ∀ {s t}, before s → SameControl s t → before t
  frameAfter : ∀ {s t}, after s → SameControl s t → after t
  plyAfter : ∀ {s} (p : Ply), after s → p.queue = s.ply.queue → p.placeHeld = s.ply.placeHeld → after (s.setPly p)
  go : ∀ {s} origin, before s → s.station.state = .ready → after (takeGo origin s)
  clear : ∀ {s} force, before s → after (clearCauses force s)
  resume : ∀ {s} x, before s → after (takeResume x s)
  run : ∀ {s} k, before s → s.station.state = .idle → after (startRun k s)
  finish : ∀ {s}, before s → s.station.state = .ready ∨ s.station.state = .stopped → after (endRun s)

namespace Performs

variable {before during after : State → Prop} (h : Performs before during after) {s : State} (holds : before s)
include h holds

theorem same : after s := h.ends (h.begins holds)

theorem frame {t : State} (same : SameControl s t) : after t := h.frameAfter (h.same holds) same

theorem stageBank (k : Nat) : after (Machine.stageBank k s) := by
  have freed : during (freedIn .staged s) := h.keeps.frame (h.begins holds) (.of_blocks (by
    unfold freedIn; split <;> simp))
  rw [stageBank_eq]
  split
  · exact h.ends (h.keeps.switchBank freed _ _)
  · exact h.ends (h.keeps.setBank freed _ _)

/-- Every request leads from `before` to `after` (R190). -/
theorem perform (code : Nat) (args : List Byte) : after (Machine.perform code args s).1 := by
  have stays : after s := h.same holds
  -- one case for each request code of R190, in the order of the codes
  unfold Machine.perform
  split
  case h_1 => unfold doStatus; dsimp only; (repeat' split) <;> exact stays
  case h_2 =>
    unfold doLine
    dsimp only
    (repeat' split)
    case h_2.isFalse.isTrue => exact h.plyAfter _ stays rfl rfl
    all_goals exact stays
  case h_3 => unfold doPeers inService; dsimp only; (repeat' split) <;> exact stays
  case h_4 => unfold doMap inService; (repeat' split) <;> exact stays
  case h_5 => unfold doPackage inService; (repeat' split) <;> exact stays
  case h_6 => unfold doBankRead inService; dsimp only; (repeat' split) <;> exact stays
  case h_7 =>
    unfold doBankWrite inService
    dsimp only
    (repeat' split)
    case h_1.isFalse.isTrue.isFalse => exact h.ends (h.keeps.setBank (h.begins holds) _ _)
    all_goals exact stays
  case h_8 =>
    unfold doRun
    split
    · split_ifs with _ idle
      · exact stays
      · exact stays
      · exact stays
      · exact h.run _ holds (not_not.mp idle)
    · exact stays
  case h_9 =>
    unfold doChange
    split
    · split_ifs
      · exact stays
      · exact stays
      · split
        · exact stays
        · exact stays
        · exact stays
        · exact h.stageBank holds _
    · exact stays
  case h_10 =>
    unfold doGo
    split
    · split
      · exact h.go _ holds ‹_›
      · exact stays
    · exact stays
  case h_11 =>
    unfold doStop
    split
    · split
      · exact stays
      · split
        · exact stays
        · exact h.ends (h.keeps.raiseLocal _ (h.begins holds))
    · exact stays
  case h_12 =>
    have acts (force : Bool) : after (inService s (clearCauses force s, .done 0 [])).1 := by
      unfold inService
      split
      · exact h.clear _ holds
      · exact stays
    unfold doClear
    dsimp only
    split
    · exact acts false
    · split_ifs
      · exact acts false
      · exact acts true
      · exact stays
    · exact stays
  case h_13 =>
    unfold doEnd
    split
    · split
      · exact h.finish holds ‹_›
      · exact stays
    · exact stays
  case h_14 =>
    unfold doRestart
    split
    · split
      · exact h.frame holds ⟨rfl, rfl, rfl, rfl, rfl, rfl, rfl, rfl, rfl, rfl, rfl, rfl, rfl⟩
      · exact stays
    · exact stays
  case h_15 => exact stays

theorem performAsk (code : Nat) (args : List Byte) : after (Machine.performAsk code args s).1 := by
  unfold Machine.performAsk
  split
  · exact h.same holds
  · exact h.perform holds _ _

end Performs

/-- Beside the requests, the line's own events and an ASK to this station lead from `before` to `after`. -/
structure Leads (before during after : State → Prop) : Prop extends Performs before during after where
  line : ∀ {s} (p : Ply), before s → p.queue.length ≤ s.ply.queue.length → p.placeHeld = s.ply.placeHeld →
    before (s.setPly p)
  ask : ∀ {s} sender tag code args, before s → after (askHere sender tag code args s)

theorem launch_length {urgent : Bool} {pos : Nat} {l q : List QFrame} {b : TxBody}
    (launched : launch urgent pos l = some (b, q)) : q.length = l.length := by
  induction l generalizing q with
  | nil => cases launched
  | cons f fs ih =>
    unfold launch at launched
    split at launched
    · cases launched
      rfl
    · obtain ⟨⟨_, rest⟩, found, same⟩ := Option.map_eq_some_iff.mp launched
      cases same
      simp [ih found]

theorem collideQueue_length_le (l : List QFrame) : (collideQueue l).1.length ≤ l.length := by
  induction l with
  | nil => exact le_rfl
  | cons f fs ih =>
    unfold collideQueue
    split
    · split
      · exact le_rfl
      · exact Nat.le_succ _
    · exact Nat.succ_le_succ ih

theorem continueOrEnd_queue (burst : Nat) (p : Ply) : (continueOrEnd burst p).queue = p.queue := by
  unfold continueOrEnd; split <;> rfl

theorem continueOrEnd_placeHeld (burst : Nat) (p : Ply) : (continueOrEnd burst p).placeHeld = p.placeHeld := by
  unfold continueOrEnd; split <;> rfl

theorem reportDrop_sameControl (b : TxBody) (s : State) : SameControl s (reportDrop b s) := by
  unfold reportDrop
  split <;> exact ⟨rfl, rfl, rfl, rfl, rfl, rfl, rfl, rfl, rfl, rfl, rfl, rfl, rfl⟩

theorem reportSent_sameControl (b : TxBody) (s : State) : SameControl s (reportSent b s) := by
  unfold reportSent
  split <;> exact ⟨rfl, rfl, rfl, rfl, rfl, rfl, rfl, rfl, rfl, rfl, rfl, rfl, rfl⟩

namespace Leads

variable {before during after : State → Prop} (h : Leads before during after) {s : State} (holds : before s)
include h holds

/-! ## The line's own events (R181 to R186) -/

/-- A change of the line interface that leaves the queue alone. -/
theorem linePly (p : Ply) (queue : p.queue = s.ply.queue) (held : p.placeHeld = s.ply.placeHeld) :
    before (s.setPly p) := h.line p holds (le_of_eq (congrArg List.length queue)) held

theorem reportSent (b : TxBody) : before (Machine.reportSent b s) := h.frameBefore holds (reportSent_sameControl b s)

theorem reportDrop (b : TxBody) : before (Machine.reportDrop b s) := h.frameBefore holds (reportDrop_sameControl b s)

theorem sendPick (p : Pick) (n : Nat) : before (Machine.sendPick p n s) := by
  unfold Machine.sendPick
  split
  · split
    · rename_i launched
      exact h.line _ holds (launch_length launched).le rfl
    · exact holds
  · split
    · exact h.linePly holds _ rfl rfl
    · exact holds

theorem startAccess : before (Machine.startAccess s) := by
  unfold Machine.startAccess
  split
  · split
    · split
      · exact h.sendPick holds _ _
      · exact holds
    · exact holds
  · exact holds

theorem nextInBurst : before (Machine.nextInBurst s) := by
  have ended : before (s.setPly s.ply.endAccess) := h.linePly holds _ rfl rfl
  unfold Machine.nextInBurst
  split
  · split
    · exact holds
    · split
      · split
        · exact h.sendPick holds _ _
        · exact ended
      · exact ended
  · exact holds

theorem frameSent : before (Machine.frameSent s) := by
  unfold Machine.frameSent
  split
  · rename_i taken
    refine h.reportSent (h.line _ holds ?_ ?_) _
    · rw [continueOrEnd_queue]
      exact (takeFirst_sublist taken).length_le
    · exact continueOrEnd_placeHeld _ _
  · split
    · exact h.linePly holds _ (continueOrEnd_queue _ _) (continueOrEnd_placeHeld _ _)
    · exact holds

theorem collide : before (Machine.collide s) := by
  have shorter := collideQueue_length_le s.ply.queue
  unfold Machine.collide
  dsimp only
  split
  · split
    · refine h.linePly holds _ ?_ ?_ <;> (unfold Ply.collidePace; dsimp only; split <;> rfl)
    · split
      · exact h.line _ holds shorter rfl
      · refine h.reportDrop (h.line _ holds ?_ ?_) _
        · exact shorter
        · rfl
  · exact holds

theorem idleSlot : before (Machine.idleSlot s) := by
  unfold Machine.idleSlot
  split
  · exact h.linePly holds _ rfl rfl
  · exact holds

/-! ## Frames (R187, R188, R191) -/

theorem takeAsk (f : RxFrame) : after (Machine.takeAsk f s) := by
  unfold Machine.takeAsk
  split
  · split
    · unfold askAll
      split_ifs
      · exact h.same holds
      · exact h.perform holds _ _
      · exact h.same (h.linePly holds _ rfl rfl)
    · exact h.ask _ _ _ _ holds
  · exact h.same holds

theorem handOn (kind : BitVec 4) (f : RxFrame) : after (Machine.handOn kind f s) := by
  have stays : after s := h.same holds
  unfold Machine.handOn
  split_ifs
  · exact h.takeAsk holds f
  · exact stays
  · unfold takePace
    split
    · exact stays
    · exact h.ends (h.keeps.setPace (h.begins holds) _ rfl)
  · unfold haltFrame
    split
    · exact h.ends (h.keeps.takeHalt _ _ (h.begins holds))
    · exact stays
  · unfold resumeFrame
    split
    · exact h.resume _ holds
    · exact stays
  · unfold goFrame
    split
    · split
      · exact h.go _ holds ‹_›
      · exact stays
    · exact stays
  · have ignored : after (s.setPace { s.pace with handoffsIgnored := sat Config.count16 s.pace.handoffsIgnored }) :=
      h.ends (h.keeps.setPace (h.begins holds) _ rfl)
    unfold handoffFrame
    dsimp only
    split
    · split
      · exact h.ends (h.keeps.acceptHandoff (h.begins holds) _ _)
      · exact ignored
    · exact ignored
  · exact stays

theorem receive (kind : BitVec 4) (f : RxFrame) : after (Machine.receive kind f s) := by
  have heard (fate : RxFate) : before (hearFrame fate s) := h.linePly holds _ rfl rfl
  unfold Machine.receive
  dsimp only
  split_ifs
  · exact h.same holds
  · exact h.same (h.linePly holds _ rfl rfl)
  · split
    · exact h.same (h.linePly (heard (rxFate s.own kind f)) _ rfl rfl)
    · exact h.same (heard (rxFate s.own kind f))
    · exact h.same (h.linePly (heard (rxFate s.own kind f)) _ rfl rfl)
    · exact h.handOn (heard _) kind f

theorem receiveLine (chars : List LineByte) : after (Machine.receiveLine chars s) := by
  unfold Machine.receiveLine receiveBytes
  split_ifs
  · exact h.same holds
  · exact h.same (h.linePly holds _ rfl rfl)
  · exact h.same (h.linePly (h.linePly holds _ rfl rfl) _ rfl rfl)
  · exact h.same (h.linePly (h.linePly holds _ rfl rfl) _ rfl rfl)
  · exact h.receive holds _ _

/-! ## Every command but those of reset and START -/

theorem exec {c : Instr} {t : State} (performed : Machine.exec c s = .next t) (other : startsOver c = false) :
    after t := by
  have now : during s := h.begins holds
  have stays : after s := h.same holds
  cases c <;> cases performed
  case coldReset | resetRelease | blockReadAttempt | readRetry | warmRestart => cases other
  case activeSourcePulse => exact h.ends (h.keeps.activePulse now)
  case nonActiveSourcePulse =>
    unfold nonActivePulse
    (repeat' split)
    case isFalse => exact stays
    all_goals exact h.ends (h.keeps.setLength now _)
  case spindlePulse =>
    unfold spindlePulse
    split
    · exact h.ends (h.keeps.setTwist now _)
    · exact stays
  case rowStroke =>
    unfold rowStroke
    split
    · exact h.ends (h.keeps.closeRow now)
    · exact stays
  case sectionEdge =>
    unfold sectionEdge
    split
    · exact h.ends (h.keeps.setKnot now _)
    · exact stays
  case jniEdge =>
    unfold jniEdge
    split
    · exact h.ends (h.keeps.writeJoin now)
    · exact stays
  case brkActive =>
    split
    · exact stays
    · exact h.ends (h.keeps.raiseLocal _ (h.keeps.press true now))
  case brkInactive => exact h.ends (h.keeps.press false now)
  case stpEdge => exact h.ends (h.keeps.raiseLocal _ now)
  case staEdge =>
    split
    · split
      · exact h.run _ holds ‹_›
      · exact stays
    · exact h.go _ holds ‹_›
    all_goals exact stays
  case clrEdge =>
    split
    · exact h.clear _ holds
    · exact stays
  case regulationTick => exact h.ends (h.keeps.tick now)
  case dwellStart => exact h.ends (h.keeps.beginDwell now)
  case pacePeriodExpiry => exact h.ends (h.keeps.refreshPace now)
  case peerStale =>
    unfold staleAt
    dsimp only
    split
    · exact h.ends (h.keeps.setPace now _ rfl)
    · exact stays
  case markShiftComplete => exact h.ends (h.keeps.setMarks now _)
  case cutPulseEnd => exact h.ends (h.keeps.setFormer now _ rfl)
  case accessStart => exact h.same (h.startAccess holds)
  case frameSent => exact h.same (h.frameSent holds)
  case collision => exact h.same (h.collide holds)
  case normalHoldTimeout =>
    unfold holdTimeout
    split
    · exact h.same (h.linePly holds _ rfl rfl)
    · exact stays
  case receiveError => exact h.receiveLine holds _
  case burstNextFrame => exact h.same (h.nextInBurst holds)
  all_goals exact h.receive holds _ _

end Leads

end Sys2Proof.Machine
end

section
/-!
PROOF. The rules of the station block (R151 to R160): DEN, ALM and first cause follow state and cause set through every
cause taken, every removal and every transition, and no transition leaves the table of section 8.1.
-/

namespace Sys2Proof.Machine

open Sys2Proof.Safety

/-! ## The station block by itself -/

/-- DEN, the cause set, ALM and first cause of a station block are as R153, R159, R160 and R165 tie them. -/
def Station.Lawful (st : Station) : Prop :=
  (st.den = st.state.driven ∧ (st.hardHeld = true → st.den = false)) ∧
    (st.setEmpty = false ↔ st.state = .easing ∨ st.state = .stopped) ∧ st.alm = (!st.setEmpty) ∧
    st.firstCause.isSome = !st.setEmpty

theorem stationLawful_iff {s : State} : StationLawful s ↔ startQuiet s ∧ s.station.Lawful := Iff.rfl

/-- A transition of the station while a run goes on without END: a cause is taken, or the stop ramp ends. -/
inductive Falls : StationState → StationState → Prop
  | stays (a : StationState) : Falls a a
  | readyStops : Falls .ready .stopped
  | runEases : Falls .run .easing
  | runStops : Falls .run .stopped
  | easingStops : Falls .easing .stopped

theorem Falls.trans {a b c : StationState} (first : Falls a b) (second : Falls b c) : Falls a c := by
  cases first <;> cases second <;> constructor

theorem Falls.transition {a b : StationState} (falls : Falls a b) : transition a b = true := by
  cases falls with
  | stays a => cases a <;> rfl
  | readyStops | runEases | runStops | easingStops => rfl

theorem transition_refl (a : StationState) : transition a a = true := (Falls.stays a).transition

theorem Falls.of_ready {b : StationState} (falls : Falls .ready b) : b = .ready ∨ b = .stopped := by
  cases falls with
  | stays => exact .inl rfl
  | readyStops => exact .inr rfl

/-- The four states of a run (section 8.1). -/
theorem inRun_cases {a : StationState} (run : a.inRun = true) : a = .ready ∨ a = .run ∨ a = .easing ∨ a = .stopped := by
  cases a
  case start | held | idle => cases run
  all_goals simp

/-- Whatever state a run is in, a HARD cause stops it (R153). -/
theorem Falls.stop {a : StationState} (run : a.inRun = true) : Falls a .stopped := by
  rcases inRun_cases run with rfl | rfl | rfl | rfl
  · exact .readyStops
  · exact .runStops
  · exact .easingStops
  · exact .stays _

/-- `t` is the block `st` with one cause more in its set: of the given level when it is HARD. -/
structure Station.Caused (st : Station) (l : Level) (t : Station) : Prop where
  state : t.state = st.state
  den : t.den = st.den
  held : t.setEmpty = false
  alm : t.alm = true
  first : t.firstCause.isSome = true
  hard : t.hardHeld = true → st.hardHeld = true ∨ l = .hard

namespace Station

theorem noteTaken_first {st : Station} (lawful : st.Lawful) (h : HeldCause) :
    (st.noteTaken h).firstCause.isSome = true := by
  obtain ⟨-, -, -, first⟩ := lawful
  unfold noteTaken
  dsimp only
  split
  · rfl
  · simp [*]

theorem caused_takeLocal {st : Station} (lawful : st.Lawful) (own : Nat) (c : LocalCause) :
    st.Caused c.level (st.takeLocal own c) where
  state := rfl
  den := rfl
  held := by simp [setEmpty, takeLocal]
  alm := rfl
  first := noteTaken_first lawful _
  hard held := by
    cases level : c.level
    · exact .inr rfl
    · exact .inl ((hardHeld_takeLocal level _ _).symm.trans held)

theorem caused_takePeer {st : Station} (lawful : st.Lawful) (p : PeerHalt) :
    st.Caused p.level (st.takePeer p) where
  state := rfl
  den := rfl
  held := by simp [setEmpty, takePeer]
  alm := rfl
  first := noteTaken_first lawful _
  hard held := by
    simpa [hardHeld, takePeer, noteTaken, or_assoc] using held

theorem Caused.gone {st t : Station} {l : Level} (caused : st.Caused l t) (gone : Bool) :
    st.Caused l { t with answerGone := gone } :=
  ⟨caused.state, caused.den, caused.held, caused.alm, caused.first, caused.hard⟩

/-- A station with a cause held may stand STOPPED, and without a HARD one it may ease (R153). -/
theorem Caused.entered {st t : Station} {l : Level} (caused : st.Caused l t) {target : StationState}
    (held : target = .easing ∨ target = .stopped) (free : target = .easing → t.hardHeld = false) :
    (t.enter target).Lawful := by
  have notEmpty : (t.enter target).setEmpty = false := caused.held
  refine ⟨⟨rfl, fun hard => ?_⟩, iff_of_true notEmpty held, ?_, ?_⟩
  · obtain rfl | rfl := held
    · exact absurd (free rfl) (ne_false_of_eq_true hard)
    · rfl
  · rw [notEmpty]
    exact caused.alm
  · rw [notEmpty]
    exact caused.first

theorem Caused.stopped {st t : Station} {l : Level} (caused : st.Caused l t) : (t.enter .stopped).Lawful :=
  caused.entered (.inr rfl) nofun

/-- Of a lawful block with a further cause the rest of the law stands where the state is EASING or STOPPED already. -/
theorem Caused.stands {st t : Station} {l : Level} (lawful : st.Lawful) (caused : st.Caused l t)
    (held : st.state = .easing ∨ st.state = .stopped) (hard : l = .hard → st.den = false) : t.Lawful := by
  obtain ⟨⟨den, unpowered⟩, -⟩ := lawful
  refine ⟨⟨?_, fun held => ?_⟩, iff_of_true caused.held ?_, ?_, ?_⟩
  · rw [caused.den, caused.state, den]
  · rw [caused.den]
    exact (caused.hard held).elim unpowered hard
  · rwa [caused.state]
  · rw [caused.held, caused.alm]
    rfl
  · rw [caused.held, caused.first]
    rfl

theorem Lawful.free_of_driven {st : Station} (lawful : st.Lawful) (driven : st.state.driven = true) :
    st.hardHeld = false := by
  obtain ⟨⟨den, unpowered⟩, -⟩ := lawful
  by_contra held
  simp [unpowered (by simpa using held), driven] at den

/-- A SOFT cause stops READY and eases RUN, and leaves EASING and STOPPED (R153). -/
theorem Caused.softened {st t : Station} (lawful : st.Lawful) (caused : st.Caused .soft t)
    (run : st.state.inRun = true) : t.softened.Lawful ∧ Falls st.state t.softened.state := by
  have soft : Level.soft = .hard → st.den = false := fun same => nomatch same
  unfold Station.softened
  rw [caused.state]
  cases state : st.state
  case ready => exact ⟨caused.stopped, .readyStops⟩
  case run =>
    have free : t.hardHeld = false := by
      by_contra held
      have := (caused.hard (by simpa using held)).resolve_right nofun
      rw [lawful.free_of_driven (by rw [state]; rfl)] at this
      cases this
    rw [if_neg (by simp [free])]
    exact ⟨caused.entered (.inl rfl) fun _ => free, .runEases⟩
  case easing | stopped =>
    refine ⟨caused.stands lawful (by simp [state]) soft, ?_⟩
    rw [caused.state, state]
    exact .stays _
  all_goals simp [state, StationState.inRun] at run

end Station

/-! ## The rules of the block within a run -/

/-- The block is lawful and has come from state `a` as a run may. -/
def Ruled (a : StationState) (s : State) : Prop := s.station.Lawful ∧ Falls a s.station.state

theorem SameControl.setEmpty {s t : State} (same : SameControl s t) : t.station.setEmpty = s.station.setEmpty := by
  rw [Station.setEmpty, same.locals, same.peers, Station.setEmpty]

theorem SameControl.lawful {s t : State} (same : SameControl s t) (lawful : s.station.Lawful) :
    t.station.Lawful := by
  have hard : t.station.hardHeld = s.station.hardHeld := by
    rw [Station.hardHeld, same.locals, same.peers, Station.hardHeld]
  unfold Station.Lawful
  rwa [same.setEmpty, hard, same.den, same.alm, same.firstCause, same.state]

namespace Ruled

variable {a : StationState} {s : State}

theorem of_stands {st : Station} {t : State} (lawful : st.Lawful) (falls : Falls a st.state)
    (stands : StationStands st t) : Ruled a t := by
  obtain ⟨gone, station⟩ := stands
  rw [Ruled, station]
  exact ⟨lawful, falls⟩

theorem frame {t : State} (holds : Ruled a s) (same : SameControl s t) : Ruled a t :=
  ⟨same.lawful holds.1, same.state ▸ holds.2⟩

theorem station_eq {t : State} (holds : Ruled a s) (same : t.station = s.station) : Ruled a t := by
  rwa [Ruled, same]

/-- A SOFT cause enters the set, and the station does as R153 has it. -/
theorem softened {t : State} {l : Level} (holds : Ruled a s) (run : s.inRun = true)
    (caused : s.station.Caused l t.station) (soft : l = .soft) : Ruled a (actSoft t) := by
  obtain ⟨lawful, falls⟩ := holds
  subst soft
  rw [Ruled, actSoft_station]
  obtain ⟨softened, fell⟩ := caused.softened lawful run
  exact ⟨softened, falls.trans fell⟩

theorem caused_announce {s : State} (lawful : s.station.Lawful) (c : LocalCause) :
    s.station.Caused c.level (announce c (s.setStation (s.station.takeLocal s.own c))).station := by
  obtain ⟨gone, station⟩ := announce_station c (s.setStation (s.station.takeLocal s.own c))
  rw [station]
  exact (Station.caused_takeLocal lawful s.own c).gone gone

theorem raiseSoft {c : LocalCause} (soft : c.level = .soft) (holds : Ruled a s) :
    Ruled a (Machine.raiseSoft c s) := by
  unfold Machine.raiseSoft
  split
  · rename_i taken
    obtain ⟨run, -⟩ := Bool.and_eq_true_iff.mp taken
    exact holds.softened run (caused_announce holds.1 c) soft
  · exact holds

theorem eventKeeps (a : StationState) : EventKeeps (Ruled a) where
  frame := frame
  queue b holds := of_stands holds.1 holds.2 (enqueue_station b _)
  raise := raiseSoft
  recut holds _ := holds.station_eq rfl
  arrive _ holds _ := holds.station_eq rfl

/-- A cause of either level enters the set, and the station does as R153 has it. -/
theorem actLevel {t : State} {l : Level} (holds : Ruled a s) (run : s.inRun = true)
    (caused : s.station.Caused l t.station) : Ruled a (Machine.actLevel l t) := by
  have fell : Falls a .stopped := holds.2.trans (.stop run)
  unfold Machine.actLevel
  split
  · exact holds.softened run caused rfl
  · split
    · rw [Ruled, stopFromReady, changeState_station, State.setPace_station, clearDwell_station]
      exact ⟨caused.stopped, fell⟩
    · exact (eventKeeps a).enterStopped ⟨caused.stopped, fell⟩
    · exact (eventKeeps a).enterStopped ⟨caused.stopped, fell⟩
    · rename_i notReady notRun notEasing
      have state : s.station.state = .stopped := by
        rw [caused.state] at notReady notRun notEasing
        exact (((inRun_cases run).resolve_left notReady).resolve_left notRun).resolve_left notEasing
      refine ⟨caused.stands holds.1 (.inr state) fun _ => ?_, ?_⟩
      · rw [holds.1.1.1, state]
        rfl
      · rw [caused.state, state]
        exact fell

theorem controlKeeps (a : StationState) : ControlKeeps (Ruled a) where
  toEventKeeps := eventKeeps a
  raiseLocal c holds := by
    unfold Machine.raiseLocal
    split
    · rename_i taken
      obtain ⟨run, -⟩ := Bool.and_eq_true_iff.mp taken
      exact holds.actLevel run (caused_announce holds.1 c)
    · exact holds
  takeHalt e r holds := by
    unfold Machine.takeHalt
    split
    · rename_i taken
      obtain ⟨run, -⟩ := Bool.and_eq_true_iff.mp (Bool.and_eq_true_iff.mp taken).1
      split
      · exact (eventKeeps a).queue _ (holds.actLevel run (Station.caused_takePeer holds.1 _))
      · exact raiseSoft rfl holds
    · exact holds
  stop {s} holds easing := by
    obtain ⟨⟨-, held, alm, first⟩, falls⟩ := holds
    have notEmpty : s.station.setEmpty = false := held.mpr (.inl easing)
    refine ⟨⟨⟨rfl, fun _ => rfl⟩, iff_of_true notEmpty (.inr rfl), alm, first⟩, ?_⟩
    rw [easing] at falls
    exact falls.trans .easingStops
  press _ holds := ⟨holds.1, holds.2⟩

end Ruled

end Sys2Proof.Machine
end

section
/-!
PROOF. The rules of the station block through GO, the removals, run start, END, the requests and the line's own events:
every command but those of reset and START keeps them and stays in the table of section 8.1.
-/

namespace Sys2Proof.Machine

open Sys2Proof.Safety

/-! ## Removals (R154, R156, R160, R165) -/

/-- The block once a removal has settled (R154, R156). -/
def Station.settled (st : Station) : Station :=
  if st.setEmpty then
    match st.state with
    | .easing => st.noteEmptied.enter .run
    | .stopped => st.noteEmptied.enter .ready
    | _ => st.noteEmptied
  else st

theorem settleRemoval_station (s : State) : (settleRemoval s).station = s.station.settled := by
  unfold settleRemoval Station.settled
  split
  · dsimp only
    rw [show (s.setStation s.station.noteEmptied).station.state = s.station.state from rfl]
    cases s.station.state
    case easing => simp [resumeRun]
    case stopped => simp
    all_goals rfl
  · rfl

theorem resumeOwn_stands (before : List LocalCause) (s : State) : StationStands s.station (resumeOwn before s) := by
  unfold resumeOwn
  split
  · exact enqueue_station _ _
  · exact .refl s

/-- A removal before it acts: the local causes that may not be removed stay, and with force no peer record does
(R166, R167). -/
def removeCauses (force : Bool) (s : State) : State :=
  s.setStation { s.station with
    locals := s.station.locals.filter (fun c => !removable s c)
    peers := if force then [] else s.station.peers }

theorem clearCauses_of_held {s : State} (force : Bool) (held : s.station.setEmpty = false) :
    clearCauses force s = resumeOwn s.station.locals (settleRemoval (removeCauses force s)) := by
  rw [clearCauses, if_neg (by simp [held])]
  rfl

theorem clearCauses_of_empty {s : State} (force : Bool) (empty : s.station.setEmpty = true) :
    clearCauses force s = s := if_pos empty

namespace Station

/-- `t` is the block `st` with causes taken out of its set. -/
structure Reduced (st t : Station) : Prop where
  state : t.state = st.state
  den : t.den = st.den
  alm : t.alm = st.alm
  first : t.firstCause = st.firstCause
  hard : t.hardHeld = true → st.hardHeld = true
  held : st.setEmpty = false

theorem Reduced.gone {st t : Station} (reduced : st.Reduced t) (gone : Bool) :
    st.Reduced { t with answerGone := gone } :=
  ⟨reduced.state, reduced.den, reduced.alm, reduced.first, reduced.hard, reduced.held⟩

theorem reduced_of_sublist {st : Station} {locals : List LocalCause} {peers : List PeerHalt}
    (held : st.setEmpty = false) (fewer : locals.Sublist st.locals) (less : peers.Sublist st.peers) :
    st.Reduced { st with locals := locals, peers := peers } where
  state := rfl
  den := rfl
  alm := rfl
  first := rfl
  hard hard := by
    simp only [hardHeld, Bool.or_eq_true, List.any_eq_true] at hard ⊢
    exact hard.imp (fun ⟨c, mem, level⟩ => ⟨c, fewer.subset mem, level⟩)
      fun ⟨p, mem, level⟩ => ⟨p, less.subset mem, level⟩
  held := held

theorem hardHeld_of_setEmpty {st : Station} (empty : st.setEmpty = true) : st.hardHeld = false := by
  simp only [setEmpty, Bool.and_eq_true, List.isEmpty_iff] at empty
  simp [hardHeld, empty]

/-- With the set empty a station may stand in every state without a cause (R160). -/
theorem emptied_lawful {st : Station} (empty : st.setEmpty = true) {target : StationState}
    (clear : target ≠ .easing ∧ target ≠ .stopped) : (st.noteEmptied.enter target).Lawful := by
  have free : (st.noteEmptied.enter target).hardHeld = false := hardHeld_of_setEmpty empty
  have none : (st.noteEmptied.enter target).setEmpty = true := empty
  refine ⟨⟨rfl, fun hard => by simp [free] at hard⟩, ?_, by rw [none]; rfl, by rw [none]; rfl⟩
  rw [none]
  exact iff_of_false nofun (not_or.mpr clear)

theorem Reduced.settled {st t : Station} (lawful : st.Lawful) (reduced : st.Reduced t) :
    t.settled.Lawful ∧ transition st.state t.settled.state = true := by
  obtain ⟨⟨den, unpowered⟩, held, alm, first⟩ := lawful
  unfold Station.settled
  split
  · rename_i empty
    rw [reduced.state]
    rcases held.mp reduced.held with state | state <;> rw [state]
    · exact ⟨emptied_lawful empty (by decide), rfl⟩
    · exact ⟨emptied_lawful empty (by decide), rfl⟩
  · rename_i left
    have notEmpty : t.setEmpty = st.setEmpty := by rw [reduced.held, Bool.eq_false_of_not_eq_true left]
    refine ⟨⟨⟨?_, fun hard => ?_⟩, ?_, ?_, ?_⟩, ?_⟩
    · rw [reduced.den, reduced.state, den]
    · rw [reduced.den, unpowered (reduced.hard hard)]
    · rw [notEmpty, reduced.state, held]
    · rw [notEmpty, reduced.alm, alm]
    · rw [notEmpty, reduced.first, first]
    · rw [reduced.state]
      exact transition_refl _

theorem Lawful.empty {st : Station} (lawful : st.Lawful) (clear : st.state ≠ .easing ∧ st.state ≠ .stopped) :
    st.setEmpty = true := by
  obtain ⟨-, held, -⟩ := lawful
  by_contra notEmpty
  exact (held.mp (by simpa using notEmpty)).elim clear.1 clear.2

/-- A station with nothing held may go to every state without a cause. -/
theorem Lawful.entered {st : Station} (lawful : st.Lawful) (empty : st.setEmpty = true) {target : StationState}
    (clear : target ≠ .easing ∧ target ≠ .stopped) : (st.enter target).Lawful := by
  obtain ⟨-, -, alm, first⟩ := lawful
  have free : (st.enter target).hardHeld = false := hardHeld_of_setEmpty empty
  have none : (st.enter target).setEmpty = st.setEmpty := rfl
  refine ⟨⟨rfl, fun hard => by simp [free] at hard⟩, ?_, ?_, ?_⟩
  · rw [none, empty]
    exact iff_of_false nofun (not_or.mpr clear)
  · rw [none]
    exact alm
  · rw [none]
    exact first

end Station

/-! ## Before and after a command -/

/-- The block is lawful and stands in state `a`. -/
def RuledAt (a : StationState) (s : State) : Prop := s.station.Lawful ∧ s.station.state = a

/-- The block is lawful and its state is one that the table of section 8.1 lets `a` pass to. -/
def RuledFrom (a : StationState) (s : State) : Prop := s.station.Lawful ∧ transition a s.station.state = true

namespace RuledFrom

variable {a : StationState} {s : State}

theorem of_stands {st : Station} {t : State} (lawful : st.Lawful) (passed : transition a st.state = true)
    (stands : StationStands st t) : RuledFrom a t := by
  obtain ⟨gone, station⟩ := stands
  rw [RuledFrom, station]
  exact ⟨lawful, passed⟩

theorem of_ruled (ruled : Ruled a s) : RuledFrom a s := ⟨ruled.1, ruled.2.transition⟩

/-- A removal settles by the table, whether RESUME is queued or not. -/
theorem settled {t : State} (lawful : s.station.Lawful) (reduced : s.station.Reduced t.station) :
    RuledFrom s.station.state (settleRemoval t) := by
  rw [RuledFrom, settleRemoval_station]
  exact reduced.settled lawful

theorem clearCauses (force : Bool) (lawful : s.station.Lawful) :
    RuledFrom s.station.state (Machine.clearCauses force s) := by
  cases held : s.station.setEmpty
  case true =>
    rw [clearCauses_of_empty force held]
    exact ⟨lawful, transition_refl _⟩
  case false =>
    have less : (if force then [] else s.station.peers).Sublist s.station.peers := by
      split
      · exact List.nil_sublist _
      · exact List.Sublist.refl _
    obtain ⟨settled, passed⟩ := RuledFrom.settled (t := removeCauses force s) lawful
      (Station.reduced_of_sublist held List.filter_sublist less)
    rw [clearCauses_of_held force held]
    exact of_stands settled passed (resumeOwn_stands _ _)

theorem takeResume (x : Nat) (lawful : s.station.Lawful) :
    RuledFrom s.station.state (Machine.takeResume x s) := by
  unfold Machine.takeResume
  split
  · rename_i found
    have held : s.station.setEmpty = false := by
      obtain ⟨p, mem, -⟩ := List.any_eq_true.mp found
      simp [Station.setEmpty, List.ne_nil_of_mem mem]
    have reduced := Station.reduced_of_sublist held (List.Sublist.refl s.station.locals)
      (List.filter_sublist (p := fun p => p.origin != x) (l := s.station.peers))
    obtain ⟨gone, station⟩ := enqueue_station (.resume x)
      (s.setStation { s.station with peers := s.station.peers.filter (fun p => p.origin != x) })
    refine settled lawful ?_
    rw [station]
    exact reduced.gone gone
  · exact ⟨lawful, transition_refl _⟩

theorem takeGo (origin : Nat) (lawful : s.station.Lawful) (ready : s.station.state = .ready) :
    RuledFrom s.station.state (Machine.takeGo origin s) := by
  have empty := lawful.empty (by simp [ready])
  obtain ⟨gone, station⟩ := enqueue_station (.go origin) (s.setStation (s.station.enter .run))
  refine of_stands (lawful.entered empty (target := .run) (by decide)) (by rw [ready]; rfl) ⟨gone, ?_⟩
  simp [Machine.takeGo, station]

theorem startRun (k : Nat) (lawful : s.station.Lawful) (idle : s.station.state = .idle) :
    RuledFrom s.station.state (Machine.startRun k s) := by
  have empty := lawful.empty (by simp [idle])
  have readied : (changeState .ready (startBlocks k s)).station = s.station.enter .ready := by
    rw [changeState_station, startBlocks_station]
  have ready : Ruled .ready (changeState .ready (startBlocks k s)) := by
    rw [Ruled, readied]
    exact ⟨lawful.entered empty (by decide), .stays _⟩
  have passed {t : State} (ruled : Ruled .ready t) : RuledFrom s.station.state t := by
    refine ⟨ruled.1, ?_⟩
    rcases ruled.2.of_ready with state | state <;> rw [idle, state] <;> rfl
  unfold Machine.startRun
  dsimp only
  split
  · exact passed ((Ruled.controlKeeps .ready).raiseLocal _ ready)
  · exact passed ready

theorem endRun (standing : s.station.state = .ready ∨ s.station.state = .stopped) :
    RuledFrom s.station.state (Machine.endRun s) := by
  refine of_stands (st := s.station.ended) ⟨⟨rfl, nofun⟩, iff_of_false nofun nofun, rfl, rfl⟩ ?_ (endRun_stands s)
  rcases standing with state | state <;> rw [state] <;> rfl

end RuledFrom

theorem ruled_performs (a : StationState) : Performs (RuledAt a) (Ruled a) (RuledFrom a) where
  keeps := Ruled.controlKeeps a
  begins holds := ⟨holds.1, holds.2 ▸ .stays _⟩
  ends := RuledFrom.of_ruled
  frameBefore holds same := ⟨same.lawful holds.1, same.state.trans holds.2⟩
  frameAfter holds same := ⟨same.lawful holds.1, same.state ▸ holds.2⟩
  plyAfter _ holds _ _ := holds
  go origin holds ready := holds.2 ▸ RuledFrom.takeGo origin holds.1 ready
  clear force holds := holds.2 ▸ RuledFrom.clearCauses force holds.1
  resume x holds := holds.2 ▸ RuledFrom.takeResume x holds.1
  run k holds idle := holds.2 ▸ RuledFrom.startRun k holds.1 idle
  finish holds standing := holds.2 ▸ RuledFrom.endRun standing

/-- An ASK to this station, where the laws read nothing of the line interface (R191). -/
theorem Performs.askHere {before during after : State → Prop} (h : Performs before during after)
    (plyBefore : ∀ {s} (p : Ply), before s → before (s.setPly p))
    (plyAfter : ∀ {s} (p : Ply), after s → after (s.setPly p))
    {s : State} (sender tag : Byte) (code : Nat) (args : List Byte) (holds : before s) :
    after (Machine.askHere sender tag code args s) := by
  unfold Machine.askHere
  split
  · exact plyAfter _ (h.performAsk (plyBefore _ holds) code args)
  · exact h.same (plyBefore _ holds)

/-- Station control: every command but those of reset and START keeps the block lawful and its state in the table. -/
theorem ruled_leads (a : StationState) : Leads (RuledAt a) (Ruled a) (RuledFrom a) where
  toPerforms := ruled_performs a
  line _ holds _ _ := holds
  ask sender tag code args holds :=
    (ruled_performs a).askHere (fun _ holds => holds) (fun _ holds => holds) sender tag code args holds

end Sys2Proof.Machine
end

section
/-!
PROOF. A property that outlasts the state's own operations, one cause taken, one transition, one removal and one frame
queued outlasts every command but those of reset and START.
-/

namespace Sys2Proof.Machine

open Sys2Proof.Safety

/-- What the commands do to a property, operation by operation: a change elsewhere, the line interface with no frame
more, a frame queued, the cut list revised, the pending arrivals changed within their capacity, a transition out of
START or another state, a new local cause, a new peer record and a removal. -/
structure ActKeeps (P : State → Prop) : Prop where
  frame : ∀ {s t}, P s → SameControl s t → P t
  line : ∀ {s} (p : Ply), P s → p.queue.length ≤ s.ply.queue.length → p.placeHeld = s.ply.placeHeld → P (s.setPly p)
  queue : ∀ {s} b, P s → P (enqueue b s)
  recut : ∀ {s l}, P s → Recut s.former.cuts l → P (setCuts l s)
  arrive : ∀ {s} (p : Pace), P s →
    (s.pace.arrivals.length ≤ Config.arrivalCapacity → p.arrivals.length ≤ Config.arrivalCapacity) → P (s.setPace p)
  enter : ∀ {s} target, P s → s.station.state ≠ .start → P (s.setStation (s.station.enter target))
  takeLocal : ∀ {s} {c : LocalCause}, P s → s.inRun = true → c ∉ s.station.locals →
    P (s.setStation (s.station.takeLocal s.own c))
  takePeer : ∀ {s} {r : PeerHalt}, P s → s.inRun = true → s.station.peers.length < Config.haltCapacity →
    r.origin ≠ s.own → (∀ p ∈ s.station.peers, p.origin ≠ r.origin) → P (s.setStation (s.station.takePeer r))
  remove : ∀ {s} {st : Station}, P s → st.state = s.station.state → st.locals.Sublist s.station.locals →
    st.peers.Sublist s.station.peers → P (s.setStation st)

namespace ActKeeps

variable {P : State → Prop} (h : ActKeeps P) {s : State} (holds : P s)
include h holds

/-! ## Transitions and causes (R153, R161, R169) -/

theorem changeState (target : StationState) (begun : s.station.state ≠ .start) : P (Machine.changeState target s) :=
  h.frame (h.enter target holds begun) (refreshPace_sameControl _)

theorem clearDwell : P (Machine.clearDwell s) := h.frame holds (clearDwell_sameControl s)

theorem setPace (p : Pace) (same : p.arrivals = s.pace.arrivals) : P (s.setPace p) :=
  h.arrive p holds fun fits => same ▸ fits

theorem stopFromReady (begun : s.station.state ≠ .start) : P (Machine.stopFromReady s) := by
  have stilled : P ((Machine.clearDwell s).setPace { (Machine.clearDwell s).pace with run := 0 }) :=
    h.setPace (h.clearDwell holds) _ rfl
  refine h.changeState stilled _ ?_
  rwa [State.setPace_station, clearDwell_station]

theorem ease (begun : s.station.state ≠ .start) : P (Machine.ease s) := by
  refine h.changeState (h.clearDwell holds) _ ?_
  rwa [clearDwell_station]

theorem actSoft : P (Machine.actSoft s) := by
  unfold Machine.actSoft
  split
  · exact h.stopFromReady holds (by simp [*])
  · split
    · exact holds
    · exact h.ease holds (by simp [*])
  · exact holds

theorem announced {c : LocalCause} (run : s.inRun = true) (new : c ∉ s.station.locals) :
    P (announce c (s.setStation (s.station.takeLocal s.own c))) := by
  have taken := h.takeLocal holds run new
  unfold announce
  split
  case h_4 => exact taken
  all_goals exact h.queue _ taken

theorem raiseSoft (c : LocalCause) : P (Machine.raiseSoft c s) := by
  by_cases taken : s.inRun = true ∧ c ∉ s.station.locals
  · rw [raiseSoft_of_new taken.1 taken.2]
    exact h.actSoft (h.announced holds taken.1 taken.2)
  · rw [not_and_or, not_not, Bool.not_eq_true] at taken
    rwa [raiseSoft_ignored taken]

omit holds in
theorem eventKeeps : EventKeeps P where
  frame := h.frame
  queue := h.queue
  raise _ holds := h.raiseSoft holds _
  recut := h.recut
  arrive := h.arrive

theorem actLevel (l : Level) : P (Machine.actLevel l s) := by
  have entered (begun : s.station.state ≠ .start) := h.eventKeeps.enterStopped (h.enter .stopped holds begun)
  unfold Machine.actLevel
  split
  · exact h.actSoft holds
  · split
    · exact h.stopFromReady holds (by simp [*])
    · exact entered (by simp [*])
    · exact entered (by simp [*])
    · exact holds

theorem raiseLocal (c : LocalCause) : P (Machine.raiseLocal c s) := by
  unfold Machine.raiseLocal
  split
  · rename_i taken
    simp only [Bool.and_eq_true, Bool.not_eq_true', List.contains_eq_mem, decide_eq_false_iff_not] at taken
    exact h.actLevel (h.announced holds taken.1 taken.2) _
  · exact holds

theorem takeHalt (e : ListenEntry) (r : PeerHalt) : P (Machine.takeHalt e r s) := by
  unfold Machine.takeHalt
  split
  · rename_i taken
    simp only [Bool.and_eq_true, bne_iff_ne, ne_eq, Bool.not_eq_true', List.any_eq_false, beq_iff_eq] at taken
    obtain ⟨⟨run, foreign⟩, new⟩ := taken
    split
    · rename_i room
      have taken := h.takePeer (r := ⟨r.origin, if e.follow = .soft then .soft else r.level⟩) holds run room foreign new
      exact h.queue _ (h.actLevel taken _)
    · exact h.raiseSoft holds _
  · exact holds

omit holds in
theorem controlKeeps : ControlKeeps P where
  toEventKeeps := h.eventKeeps
  raiseLocal c holds := h.raiseLocal holds c
  takeHalt e r holds := h.takeHalt holds e r
  stop holds easing := h.enter _ holds (by simp [easing])
  press _ holds := h.remove holds rfl (List.Sublist.refl _) (List.Sublist.refl _)

/-! ## Removals, GO, run start and END -/

theorem settleRemoval : P (Machine.settleRemoval s) := by
  have emptied : P (s.setStation s.station.noteEmptied) :=
    h.remove holds rfl (List.Sublist.refl _) (List.Sublist.refl _)
  have state : (s.setStation s.station.noteEmptied).station.state = s.station.state := rfl
  unfold Machine.settleRemoval
  split
  · dsimp only
    rw [state]
    split
    · have loaded : P (loadDwell (s.setStation s.station.noteEmptied)) := h.frame emptied (.of_blocks (by simp))
      refine h.changeState loaded _ ?_
      rw [loadDwell_station, state]
      simp [*]
    · exact h.changeState emptied _ (by rw [state]; simp [*])
    · exact emptied
  · exact holds

theorem resumeOwn (before : List LocalCause) : P (Machine.resumeOwn before s) := by
  unfold Machine.resumeOwn
  split
  · exact h.queue _ holds
  · exact holds

theorem clearCauses (force : Bool) : P (Machine.clearCauses force s) := by
  cases held : s.station.setEmpty
  case true => rwa [clearCauses_of_empty force held]
  case false =>
    have removed : P (removeCauses force s) := by
      refine h.remove holds rfl List.filter_sublist ?_
      cases force
      · exact List.Sublist.refl _
      · exact List.nil_sublist _
    rw [clearCauses_of_held force held]
    exact h.resumeOwn (h.settleRemoval removed) _

theorem takeResume (x : Nat) : P (Machine.takeResume x s) := by
  unfold Machine.takeResume
  split
  · have removed : P (s.setStation { s.station with peers := s.station.peers.filter (fun p => p.origin != x) }) :=
      h.remove holds rfl (List.Sublist.refl _) List.filter_sublist
    exact h.settleRemoval (h.queue _ removed)
  · exact holds

theorem takeGo (origin : Nat) (ready : s.station.state = .ready) : P (Machine.takeGo origin s) := by
  have passed : P (enqueue (.go origin) (s.setStation (s.station.enter .run))) :=
    h.queue _ (h.enter .run holds (by simp [ready]))
  refine h.frame (h.frame passed (refreshPace_sameControl _)) (.of_blocks ?_)
  simp only [Machine.takeGo, loadDwell_start, openRow_start, openWindow_start, loadDwell_station, openRow_station,
    openWindow_station, loadDwell_former, openRow_former, openWindow_former, loadDwell_pace, openRow_pace,
    openWindow_pace, loadDwell_ply, openRow_ply, openWindow_ply, and_self]

theorem startRun (k : Nat) (idle : s.station.state = .idle) : P (Machine.startRun k s) := by
  have readied : P (Machine.changeState .ready (startBlocks k s)) := by
    refine h.changeState (h.eventKeeps.startBlocks holds k) _ ?_
    rw [startBlocks_station, idle]
    exact nofun
  unfold Machine.startRun
  dsimp only
  split
  · exact h.raiseLocal readied _
  · exact readied

theorem endRun (standing : s.station.state = .ready ∨ s.station.state = .stopped) : P (Machine.endRun s) := by
  have closed : P (closeAtEnd s) := h.eventKeeps.closeAtEnd holds
  have blocks : P (endedBlocks (closeAtEnd s)) := by
    refine h.frame (s := (closeAtEnd s).setPace { (closeAtEnd s).pace with arrivals := [] })
      (h.arrive _ closed fun _ => Nat.zero_le _) (.of_station (by simp) (by simp))
  have emptied : P (emptiedSet (endedBlocks (closeAtEnd s))) :=
    h.remove blocks rfl (List.nil_sublist _) (List.nil_sublist _)
  have resumed := h.resumeOwn emptied (endedBlocks (closeAtEnd s)).station.locals
  have causes : P (endedCauses (endedBlocks (closeAtEnd s))) :=
    h.remove resumed rfl (List.Sublist.refl _) (List.Sublist.refl _)
  have state : (endedCauses (endedBlocks (closeAtEnd s))).station.state = s.station.state := by
    obtain ⟨gone, same⟩ := resumeOwn_stands (endedBlocks (closeAtEnd s)).station.locals
      (emptiedSet (endedBlocks (closeAtEnd s)))
    obtain ⟨_, stands⟩ := closeAtEnd_stands s
    rw [endedCauses, State.setStation_station, same, emptiedSet, State.setStation_station, endedBlocks_station, stands]
    rfl
  rw [endRun_eq]
  refine h.changeState causes _ ?_
  rw [state]
  rcases standing with state | state <;> simp [state]

omit holds in
theorem performs : Performs P P P where
  keeps := h.controlKeeps
  begins holds := holds
  ends holds := holds
  frameBefore := h.frame
  frameAfter := h.frame
  plyAfter p holds queue held := h.line p holds (le_of_eq (congrArg List.length queue)) held
  go origin holds ready := h.takeGo holds origin ready
  clear force holds := h.clearCauses holds force
  resume x holds := h.takeResume holds x
  run k holds idle := h.startRun holds k idle
  finish holds standing := h.endRun holds standing

omit holds in
theorem leads (ask : ∀ {s} sender tag code args, P s → P (askHere sender tag code args s)) : Leads P P P where
  toPerforms := h.performs
  line := h.line
  ask := ask

omit holds in
/-- A property that reads nothing of the line interface outlasts an ASK to this station, too. -/
theorem leads_of_ply (ply : ∀ {s} (p : Ply), P s → P (s.setPly p)) : Leads P P P :=
  h.leads fun sender tag code args holds => h.performs.askHere ply ply sender tag code args holds

end ActKeeps

end Sys2Proof.Machine
end

section
/-!
PROOF. Reset and START, and the step lemmas on station control, the halt records, the capacities and the cut list; with
them the table of transitions.
-/

namespace Sys2Proof.Machine

open Sys2Proof.Safety

/-! ## The laws operation by operation -/

theorem startQuiet_of_begun {s : State} (quiet : startQuiet s) (begun : s.station.state ≠ .start) :
    s.start.phase = .over := by
  by_contra early
  exact begun (quiet early).1

theorem begun_of_inRun {s : State} (run : s.inRun = true) : s.station.state ≠ .start := fun state => by
  simp [State.inRun, state, StationState.inRun] at run

theorem startQuiet_frame {s t : State} (quiet : startQuiet s) (same : SameControl s t) : startQuiet t := by
  unfold startQuiet
  rwa [same.start, same.state, same.locals, same.peers]

/-- Until START is over no cause is taken and no transition is made by anything but START itself (R174, R197). -/
theorem startQuiet_actKeeps : ActKeeps startQuiet where
  frame := startQuiet_frame
  line _ quiet _ _ := quiet
  queue b quiet := by
    obtain ⟨gone, station⟩ := enqueue_station b _
    unfold startQuiet
    rwa [enqueue_start, station]
  recut quiet _ := quiet
  arrive _ quiet _ := quiet
  enter _ quiet begun early := absurd (startQuiet_of_begun quiet begun) early
  takeLocal quiet run _ early := absurd (startQuiet_of_begun quiet (begun_of_inRun run)) early
  takePeer quiet run _ _ _ early := absurd (startQuiet_of_begun quiet (begun_of_inRun run)) early
  remove quiet state fewer less early := by
    obtain ⟨starting, locals, peers⟩ := quiet early
    rw [locals] at fewer
    rw [peers] at less
    exact ⟨state.trans starting, List.sublist_nil.mp fewer, List.sublist_nil.mp less⟩

/-- At most 8 peer halt records, each origin once and never this station's; each local cause once (R161, R170). -/
def RecordsLawful (s : State) : Prop :=
  s.station.peers.length ≤ Config.haltCapacity ∧ (s.station.peers.map (fun p => p.origin)).Nodup ∧
    (∀ p ∈ s.station.peers, p.origin ≠ s.own) ∧ s.station.locals.Nodup

theorem haltsLawful_iff {s : State} : HaltsLawful s ↔ startQuiet s ∧ RecordsLawful s := Iff.rfl

theorem recordsLawful_congr {s t : State} (records : RecordsLawful s) (start : t.start = s.start)
    (locals : t.station.locals = s.station.locals) (peers : t.station.peers = s.station.peers) : RecordsLawful t := by
  unfold RecordsLawful State.own at *
  rwa [start, locals, peers]

theorem recordsLawful_actKeeps : ActKeeps RecordsLawful where
  frame records same := recordsLawful_congr records same.start same.locals same.peers
  line _ records _ _ := records
  queue b records := by
    obtain ⟨gone, station⟩ := enqueue_station b _
    exact recordsLawful_congr records (enqueue_start _ _) (by rw [station]) (by rw [station])
  recut records _ := records
  arrive _ records _ := records
  enter _ records _ := records
  takeLocal records _ new := by
    obtain ⟨fits, once, foreign, locals⟩ := records
    exact ⟨fits, once, foreign, List.nodup_append.mpr ⟨locals, List.nodup_singleton _, by
      rintro c mem d alone rfl
      exact new (List.mem_singleton.mp alone ▸ mem)⟩⟩
  takePeer {s r} records _ room own new := by
    obtain ⟨-, once, foreign, locals⟩ := records
    have peers : (s.setStation (s.station.takePeer r)).station.peers = s.station.peers ++ [r] := rfl
    refine ⟨?_, ?_, ?_, locals⟩ <;> rw [peers]
    · rw [List.length_append, List.length_singleton]
      exact room
    · rw [List.map_append, List.nodup_append]
      refine ⟨once, List.nodup_singleton _, ?_⟩
      rintro x mem y alone rfl
      obtain ⟨p, held, rfl⟩ := List.mem_map.mp mem
      exact new p held (List.mem_singleton.mp alone)
    · intro p mem
      rcases List.mem_append.mp mem with held | alone
      · exact foreign p held
      · rw [List.mem_singleton.mp alone]
        exact own
  remove records _ fewer less := by
    obtain ⟨fits, once, foreign, locals⟩ := records
    exact ⟨less.length_le.trans fits, once.sublist (less.map _), fun p mem => foreign p (less.subset mem),
      locals.sublist fewer⟩

/-- A rule about the cut list that outlasts every act of R94. -/
theorem cuts_actKeeps {Q : List Cut → Prop} (closed : ∀ {l l'}, Q l → Recut l l' → Q l') :
    ActKeeps (fun s => Q s.former.cuts) where
  frame holds same := by rwa [same.cuts]
  line _ holds _ _ := holds
  queue b holds := by rwa [enqueue_cuts]
  recut := closed
  arrive _ holds _ := holds
  enter _ holds _ := holds
  takeLocal holds _ _ := holds
  takePeer holds _ _ _ _ := holds
  remove holds _ _ _ := holds

theorem Recut.length_le {l l' : List Cut} (fits : l.length ≤ Config.cutCapacity) (recut : Recut l l') :
    l'.length ≤ Config.cutCapacity := by
  cases recut with
  | fewer sub => exact sub.length_le.trans fits
  | placed c room _ =>
    rw [insertCut_length]
    exact room
  | moved c old _ =>
    rw [old, List.length_append, List.length_cons] at fits
    rw [insertCut_length, List.length_append]
    omega
  | marked f _ => rwa [List.length_map]

/-- The order of R94, and no place in the order of placement taken twice. -/
def CutsOrdered (l : List Cut) : Prop :=
  l.Pairwise (fun x y => x.position < y.position ∨ (x.position = y.position ∧ x.placed < y.placed)) ∧
    (l.map (fun c => c.placed)).Nodup

theorem CutsOrdered.sublist {l l' : List Cut} (ordered : CutsOrdered l) (sub : l'.Sublist l) : CutsOrdered l' :=
  ⟨ordered.1.sublist sub, ordered.2.sublist (sub.map _)⟩

/-- A cut goes in by its position when its place in the order of placement is free. -/
theorem CutsOrdered.insert {l : List Cut} (ordered : CutsOrdered l) {c : Cut} (fresh : ∀ x ∈ l, x.placed ≠ c.placed) :
    CutsOrdered (insertCut c l) := by
  refine ⟨insertCut_ordered c l ordered.1 fresh, ?_⟩
  rw [((insertCut_perm c l).map _).nodup_iff, List.map_cons, List.nodup_cons]
  refine ⟨fun taken => ?_, ordered.2⟩
  obtain ⟨x, mem, same⟩ := List.mem_map.mp taken
  exact fresh x mem same

theorem Recut.ordered {l l' : List Cut} (ordered : CutsOrdered l) (recut : Recut l l') : CutsOrdered l' := by
  cases recut with
  | fewer sub => exact ordered.sublist sub
  | placed c _ last =>
    refine ordered.insert fun x mem same => ?_
    have := nextPlacement_above l x mem
    omega
  | @moved pre post y c old stands =>
    subst old
    have sub : (pre ++ post).Sublist (pre ++ y :: post) := (List.sublist_cons_self y post).append_left pre
    refine (ordered.sublist sub).insert fun x mem same => ?_
    have once : ((pre ++ y :: post).map (fun c => c.placed)).Nodup := ordered.2
    rw [(List.perm_middle.map _).nodup_iff, List.map_cons, List.nodup_cons] at once
    refine once.1 ?_
    rw [← stands, ← same]
    exact List.mem_map_of_mem mem
  | marked f stands =>
    refine ⟨List.pairwise_map.mpr ?_, ?_⟩
    · refine ordered.1.imp fun {x y} before => ?_
      rwa [(stands x).1, (stands y).1, (stands x).2, (stands y).2]
    · rw [List.map_map]
      convert ordered.2 using 2
      funext c
      exact (stands c).2

/-- The pending arrivals within their capacity, and the transmit queue within `n` places with no more open to frames:
8, and 7 while one is held for an ANSWER (R140, R184, R191). -/
def ListsWithin (n : Nat) (s : State) : Prop :=
  s.pace.arrivals.length ≤ Config.arrivalCapacity ∧ s.ply.queue.length ≤ n ∧ s.ply.room ≤ n

theorem room_le (p : Ply) : p.room ≤ Config.queueCapacity := by
  unfold Ply.room
  split <;> decide

theorem room_congr {p q : Ply} (same : p.placeHeld = q.placeHeld) : p.room = q.room := by
  rw [Ply.room, Ply.room, same]

/-- A frame finds a place, takes another's, or is dropped (R185). -/
theorem listsWithin_enqueue {n : Nat} {s : State} (b : TxBody) (within : ListsWithin n s) :
    ListsWithin n (enqueue b s) := by
  obtain ⟨arrivals, queue, room⟩ := within
  unfold enqueue
  dsimp only
  split
  · rename_i free
    refine ⟨arrivals, ?_, room⟩
    rw [State.setPly_ply, List.length_append, List.length_singleton]
    exact (Nat.succ_le_of_lt free).trans room
  · split
    · split
      · rename_i taken
        obtain ⟨pre, post, split, rfl, -, -⟩ := takeLast_some taken
        refine ⟨by rwa [reportDrop_pace], ?_, by rwa [reportDrop_ply]⟩
        rw [split, List.length_append, List.length_cons] at queue
        simp only [reportDrop_ply, State.setPly_ply, List.length_append, List.length_singleton]
        omega
      · exact ⟨by rwa [reportDrop_pace], by rwa [reportDrop_ply], by rwa [reportDrop_ply]⟩
    · exact ⟨by rwa [reportDrop_pace], by rwa [reportDrop_ply], by rwa [reportDrop_ply]⟩

theorem listsWithin_actKeeps (n : Nat) : ActKeeps (ListsWithin n) where
  frame within same := ⟨by rw [same.arrivals]; exact within.1, by rw [same.queue]; exact within.2.1, by
    rw [room_congr same.held]; exact within.2.2⟩
  line p within fewer held := ⟨within.1, fewer.trans within.2.1, by
    rw [State.setPly_ply, room_congr held]; exact within.2.2⟩
  queue := listsWithin_enqueue
  recut within _ := within
  arrive _ within fits := ⟨fits within.1, within.2⟩
  enter _ within _ := within
  takeLocal within _ _ := within
  takePeer within _ _ _ _ := within
  remove within _ _ _ := within

/-- A request is performed with a place of the queue held, which its ANSWER takes (R191). -/
theorem listsWithin_askHere {s : State} (sender tag : Byte) (code : Nat) (args : List Byte)
    (within : ListsWithin Config.queueCapacity s) :
    ListsWithin Config.queueCapacity (askHere sender tag code args s) := by
  unfold askHere
  split
  · rename_i room
    have asked : ListsWithin (Config.queueCapacity - 1) (holdPlace true s) :=
      ⟨within.1, Nat.le_sub_one_of_lt room, le_rfl⟩
    obtain ⟨arrivals, queue, -⟩ := (listsWithin_actKeeps _).performs.performAsk asked code args
    refine ⟨arrivals, ?_, room_le _⟩
    simp only [queueAnswer, State.setPly_ply, List.length_append, List.length_singleton]
    exact Nat.add_le_of_le_sub (by decide) queue
  · exact within

/-! ## Reset and START (R197 to R203) -/

/-- Nothing is held or shown and the lists are empty, with the station in START. -/
structure Fresh (t : State) : Prop where
  station : t.station.state = .start ∧ t.station.locals = [] ∧ t.station.peers = []
  shown : t.station.den = false ∧ t.station.alm = false ∧ t.station.firstCause = none
  lists : t.former.cuts = [] ∧ t.pace.arrivals = [] ∧ t.ply.queue = []

/-- What a command of reset or START does to control and lists: nothing, the reset values, or a step of START, whose end
alone is a transition. -/
inductive StartsOver (c : Instr) (s t : State) : Prop
  | ignored (same : t = s)
  | reset (fresh : Fresh t) (cause : c = .coldReset ∨ s.station.restartPending = true)
  | goesOn (early : s.start.phase ≠ .over) (station : t.station = s.station)
      (lists : t.former.cuts = s.former.cuts ∧ t.pace.arrivals = s.pace.arrivals ∧ t.ply.queue = s.ply.queue)
  | ends (early : s.start.phase ≠ .over) (done : t.start.phase = .over) (target : StationState)
      (passed : target = .held ∨ target = .idle) (station : t.station = s.station.enter target)
      (lists : t.former.cuts = s.former.cuts ∧ t.pace.arrivals = s.pace.arrivals ∧ t.ply.queue = s.ply.queue)

theorem startsOver_judgeBlock {c : Instr} {s u : State} (early : s.start.phase ≠ .over) (bs : List Byte)
    (station : u.station = s.station)
    (lists : u.former.cuts = s.former.cuts ∧ u.pace.arrivals = s.pace.arrivals ∧ u.ply.queue = s.ply.queue) :
    StartsOver c s (judgeBlock bs u) := by
  unfold judgeBlock
  dsimp only
  split_ifs
  · exact .ends early rfl .held (.inl rfl) (by rw [← station]; rfl) lists
  · exact .ends early rfl .held (.inl rfl) (by rw [← station]; rfl) lists
  · refine .ends early (by simp [toIdle]) .idle (.inr rfl) (by rw [← station]; simp [toIdle, takeValues]) ?_
    simpa [toIdle, takeValues] using lists
  · refine .ends early rfl .held (.inl rfl) (by rw [← station]; simp [toHeld, takeValues]) ?_
    simpa [toHeld, takeValues] using lists

theorem startsOver_of_exec {c : Instr} {s t : State} (performed : exec c s = .next t) (starts : startsOver c = true) :
    StartsOver c s t := by
  cases c <;> cases performed
  case coldReset => exact .reset ⟨⟨rfl, rfl, rfl⟩, ⟨rfl, rfl, rfl⟩, ⟨rfl, rfl, rfl⟩⟩ (.inl rfl)
  case resetRelease =>
    unfold releaseReset
    split
    · exact .goesOn (by simp [*]) rfl ⟨rfl, rfl, rfl⟩
    · exact .ignored rfl
  case blockReadAttempt =>
    unfold readAttempt
    split
    · have early : s.start.phase ≠ .over := by simp [*]
      dsimp only
      split
      · exact startsOver_judgeBlock early _ rfl ⟨rfl, rfl, rfl⟩
      all_goals
        split
        · exact .goesOn early rfl ⟨rfl, rfl, rfl⟩
        · exact .ends early rfl .held (.inl rfl) rfl ⟨rfl, rfl, rfl⟩
    · exact .ignored rfl
  case readRetry =>
    unfold retryRead
    split
    · exact .goesOn (by simp [*]) rfl ⟨rfl, rfl, rfl⟩
    · exact .ignored rfl
  case warmRestart =>
    unfold takeWarmRestart
    split
    · rename_i due
      exact .reset ⟨⟨rfl, rfl, rfl⟩, ⟨rfl, rfl, rfl⟩, ⟨rfl, rfl, rfl⟩⟩ (.inr (Bool.and_eq_true_iff.mp due).1)
    · exact .ignored rfl
  all_goals cases starts

/-- A step that is no command of reset or START leads from `before` to `after` (section 1). -/
theorem Leads.step {before during after : State → Prop} (h : Leads before during after) {s t : State}
    (holds : before s) (stepped : step s = .next t)
    (begun : ∀ {c rest}, Machine.exec c (s.setPending rest) = .next t → startsOver c = true → after t) : after t := by
  unfold Machine.step at stepped
  split at stepped
  · cases stepped
    exact h.same (h.idleSlot holds)
  · rename_i c rest _
    cases starts : startsOver c
    · have taken : before (s.setPending rest) :=
        h.frameBefore holds ⟨rfl, rfl, rfl, rfl, rfl, rfl, rfl, rfl, rfl, rfl, rfl, rfl, rfl⟩
      exact h.exec taken stepped starts
    · exact begun stepped starts

/-! ## Station control -/

theorem Station.lawful_of_fresh {t : State} (fresh : Fresh t) : t.station.Lawful := by
  obtain ⟨⟨state, locals, peers⟩, ⟨den, alm, first⟩, -⟩ := fresh
  simp [Station.Lawful, Station.hardHeld, Station.setEmpty, state, locals, peers, den, alm, first, StationState.driven]

theorem StartsOver.lawful {c : Instr} {s t : State} (restarted : StartsOver c s t) (quiet : startQuiet s)
    (lawful : s.station.Lawful) : t.station.Lawful := by
  cases restarted with
  | ignored same => rwa [same]
  | reset fresh _ => exact Station.lawful_of_fresh fresh
  | goesOn _ station _ => rwa [station]
  | ends early _ target passed station _ =>
    obtain ⟨-, locals, peers⟩ := quiet early
    rw [station]
    refine lawful.entered (by simp [Station.setEmpty, locals, peers]) ?_
    rcases passed with rfl | rfl <;> decide

theorem StartsOver.quiet {c : Instr} {s t : State} (restarted : StartsOver c s t) (quiet : startQuiet s) :
    startQuiet t := by
  cases restarted with
  | ignored same => rwa [same]
  | reset fresh _ => exact fun _ => fresh.station
  | goesOn early station _ =>
    intro _
    rw [station]
    exact quiet early
  | ends _ done _ _ _ _ => exact fun early => absurd done early

theorem step_startQuiet {s t : State} (quiet : startQuiet s) (stepped : step s = .next t) : startQuiet t :=
  (startQuiet_actKeeps.leads_of_ply fun _ holds => holds).step quiet stepped fun performed starts =>
    (startsOver_of_exec performed starts).quiet quiet

/-- Settles O51: the rules of the station block by `ruled_leads`, and START's part by `step_startQuiet`. -/
theorem stepsKeepTheStationLaws : Obligations.StepsKeepTheStationLaws := by
  intro s t lawful stepped
  obtain ⟨quiet, ruled⟩ := stationLawful_iff.mp lawful
  refine stationLawful_iff.mpr ⟨step_startQuiet quiet stepped, ?_⟩
  unfold step at stepped
  split at stepped
  · cases stepped
    exact ((ruled_leads _).idleSlot ⟨ruled, rfl⟩).1
  · rename_i c rest _
    have taken : (s.setPending rest).station.Lawful := ruled
    cases starts : startsOver c
    · exact ((ruled_leads _).exec ⟨taken, rfl⟩ stepped starts).1
    · exact (startsOver_of_exec stepped starts).lawful quiet taken

/-! ## The halt records and the lists -/

theorem StartsOver.records {c : Instr} {s t : State} (restarted : StartsOver c s t) (quiet : startQuiet s)
    (records : RecordsLawful s) : RecordsLawful t := by
  have none {t : State} (locals : t.station.locals = []) (peers : t.station.peers = []) : RecordsLawful t := by
    simp [RecordsLawful, locals, peers]
  cases restarted with
  | ignored same => rwa [same]
  | reset fresh _ =>
    obtain ⟨-, locals, peers⟩ := fresh.station
    exact none locals peers
  | goesOn early station _ =>
    obtain ⟨-, locals, peers⟩ := quiet early
    exact none (by rw [station, locals]) (by rw [station, peers])
  | ends early _ target _ station _ =>
    obtain ⟨-, locals, peers⟩ := quiet early
    exact none (by rw [station]; exact locals) (by rw [station]; exact peers)

/-- A rule about the lists that holds of empty ones outlasts reset and START. -/
theorem StartsOver.lists {c : Instr} {s t : State} (restarted : StartsOver c s t)
    {Q : List Cut → List Arrival → List QFrame → Prop} (empty : Q [] [] [])
    (holds : Q s.former.cuts s.pace.arrivals s.ply.queue) : Q t.former.cuts t.pace.arrivals t.ply.queue := by
  cases restarted with
  | ignored same => rwa [same]
  | reset fresh _ =>
    obtain ⟨cuts, arrivals, queue⟩ := fresh.lists
    rwa [cuts, arrivals, queue]
  | goesOn _ _ lists | ends _ _ _ _ _ lists =>
    obtain ⟨cuts, arrivals, queue⟩ := lists
    rwa [cuts, arrivals, queue]

theorem step_cuts {Q : List Cut → Prop} (empty : Q []) (closed : ∀ {l l'}, Q l → Recut l l' → Q l') {s t : State}
    (holds : Q s.former.cuts) (stepped : step s = .next t) : Q t.former.cuts :=
  ((cuts_actKeeps closed).leads_of_ply fun _ holds => holds).step holds stepped fun performed starts =>
    (startsOver_of_exec performed starts).lists (Q := fun cuts _ _ => Q cuts) empty holds

theorem step_listsWithin {s t : State} (within : ListsWithin Config.queueCapacity s) (stepped : step s = .next t) :
    ListsWithin Config.queueCapacity t :=
  ((listsWithin_actKeeps _).leads listsWithin_askHere).step within stepped fun performed starts =>
    have lists := (startsOver_of_exec performed starts).lists
      (Q := fun _ arrivals queue => arrivals.length ≤ Config.arrivalCapacity ∧ queue.length ≤ Config.queueCapacity)
      (by decide) ⟨within.1, within.2.1⟩
    ⟨lists.1, lists.2, room_le _⟩

/-- Settles O52, law by law: the records, the three capacities, and the order of the cut list (`Recut`). -/
theorem stepsKeepTheHaltRecordsAndTheCapacities : Obligations.StepsKeepTheHaltRecordsAndTheCapacities := by
  refine fun s t stepped => ⟨fun halts => ?halts, fun capacity => ?capacity, fun ordered => ?cuts⟩
  case halts =>
    obtain ⟨quiet, records⟩ := haltsLawful_iff.mp halts
    refine haltsLawful_iff.mpr ⟨step_startQuiet quiet stepped, ?_⟩
    exact (recordsLawful_actKeeps.leads_of_ply fun _ holds => holds).step records stepped fun performed starts =>
      (startsOver_of_exec performed starts).records quiet records
  case capacity =>
    obtain ⟨cuts, arrivals, queue⟩ := capacity
    obtain ⟨arrivals', queue', -⟩ := step_listsWithin ⟨arrivals, queue, room_le _⟩ stepped
    exact ⟨step_cuts (Nat.zero_le _) Recut.length_le cuts stepped, arrivals', queue'⟩
  case cuts => exact step_cuts ⟨List.Pairwise.nil, List.nodup_nil⟩ Recut.ordered ordered stepped

/-! ## The table of transitions (section 8.1) -/

/-- A reset by RESTART passes to START from IDLE, HELD or START alone (R158). -/
theorem transition_start {a : StationState} (noRun : a.inRun = false) : transition a .start = true := by
  cases a
  case ready | run | easing | stopped => cases noRun
  all_goals rfl

theorem StartsOver.transition {c : Instr} {s t : State} (restarted : StartsOver c s t) (bounds : runBounds s)
    (warm : c ≠ .coldReset) : transition s.station.state t.station.state = true := by
  cases restarted with
  | ignored same =>
    rw [same]
    exact transition_refl _
  | reset fresh cause =>
    rw [fresh.station.1]
    exact transition_start (bounds.2 (cause.resolve_left warm))
  | goesOn _ station _ =>
    rw [station]
    exact transition_refl _
  | ends early _ target passed station _ =>
    rw [station, bounds.1 early]
    rcases passed with rfl | rfl <;> rfl

/-- Settles O57: the rules of the station block by `ruled_leads`, and the commands of reset and START by what they do to
it. -/
theorem stationStateFollowsTheTransitionTable : Obligations.StationStateFollowsTheTransitionTable := by
  intro c s t lawful bounds warm performed
  obtain ⟨quiet, ruled⟩ := stationLawful_iff.mp lawful
  cases starts : startsOver c
  case false =>
    obtain ⟨⟨⟨den, -⟩, -⟩, passed⟩ := (ruled_leads s.station.state).exec ⟨ruled, rfl⟩ performed starts
    exact ⟨passed, den⟩
  case true =>
    have restarted := startsOver_of_exec performed starts
    obtain ⟨⟨den, -⟩, -⟩ := restarted.lawful quiet ruled
    exact ⟨restarted.transition bounds warm, den⟩

end Sys2Proof.Machine
end

section
/-!
PROOF. The two resets: the values after a cold reset, and what a warm restart keeps (R114, R116, R158, R196, R197).
-/

namespace Sys2Proof.Machine

open Sys2Proof.Safety

/-! ## The cold reset -/

/-- Settles O4: the state after reset is written out block by block in the model. -/
theorem coldResetGivesTheResetState : Obligations.ColdResetGivesTheResetState := by
  refine ⟨fun s => rfl, ?start, ?station, ?length, ?marks, ?twist, ?knot, ⟨rfl, fun k => rfl, rfl, rfl⟩, ?former,
    ?banks, ?listen, ?pace, ?ply⟩
  case start | station | length | marks | twist | knot | former | pace | ply => repeat' constructor
  case banks => decide
  case listen => decide

/-! ## The warm restart -/

/-- The frame is the PKG of record `n`. -/
def QFrame.reports (n : Nat) (f : QFrame) : Bool :=
  match f.body with
  | .pkg p => p.number == n
  | _ => false

/-- The record once the frames of a queue are dropped: UNSENT when CLOSED with its PKG among them (R93). -/
def PackageRecord.afterDrops (queue : List QFrame) (r : PackageRecord) : PackageRecord :=
  if r.state = .closed ∧ queue.any (fun f => f.reports r.number) = true then { r with report := some .unsent } else r

theorem reportDrop_former (f : QFrame) (s : State) :
    (reportDrop f.body s).former = { s.former with table := s.former.table.map (PackageRecord.afterDrops [f]) } := by
  by_cases pkg : ∃ p, f.body = .pkg p
  · obtain ⟨p, body⟩ := pkg
    have marked : (fun r : PackageRecord =>
        if r.number = p.number ∧ r.state = .closed then { r with report := some .unsent } else r) =
        PackageRecord.afterDrops [f] := by
      funext r
      have own : [f].any (fun f => f.reports r.number) = true ↔ r.number = p.number := by
        rw [List.any_cons, List.any_nil, Bool.or_false, QFrame.reports, body]
        exact beq_iff_eq.trans eq_comm
      simp only [PackageRecord.afterDrops, own, and_comm]
    rw [body, reportDrop, State.setFormer_former, Former.markReport, marked]
  · have other : ∀ p, f.body ≠ .pkg p := not_exists.mp pkg
    have unmarked (r : PackageRecord) : PackageRecord.afterDrops [f] r = r := by
      refine if_neg fun ⟨_, reported⟩ => ?_
      rw [List.any_cons, List.any_nil, Bool.or_false, QFrame.reports] at reported
      split at reported
      · exact other _ ‹_›
      · cases reported
    rw [reportDrop_former_of_other other, funext unmarked]
    simp

theorem PackageRecord.afterDrops_cons (f : QFrame) (queue : List QFrame) (r : PackageRecord) :
    (r.afterDrops [f]).afterDrops queue = r.afterDrops (f :: queue) := by
  unfold PackageRecord.afterDrops
  cases reported : f.reports r.number
  · simp [reported]
  · by_cases closed : r.state = .closed
    · simp [reported, closed]
    · simp [closed]

/-- Each PKG frame of the queue makes the CLOSED record of its number UNSENT (R93, R114). -/
theorem dropReports_former (queue : List QFrame) (s : State) :
    (dropReports queue s).former = { s.former with table := s.former.table.map (PackageRecord.afterDrops queue) } := by
  induction queue generalizing s with
  | nil =>
    have unmarked : PackageRecord.afterDrops [] = id := funext fun r => if_neg (by simp)
    rw [unmarked, List.map_id]
    rfl
  | cons f fs ih =>
    rw [show dropReports (f :: fs) s = dropReports fs (reportDrop f.body s) from rfl, ih, reportDrop_former,
      List.map_map]
    simp only [Function.comp_def, PackageRecord.afterDrops_cons]

@[simp] theorem dropReports_banks (queue : List QFrame) (s : State) : (dropReports queue s).banks = s.banks :=
  foldl_keeps (fun t => t.banks) (fun t (f : QFrame) => reportDrop f.body t) (fun t f => by simp) _ s

@[simp] theorem dropReports_ply (queue : List QFrame) (s : State) : (dropReports queue s).ply = s.ply :=
  foldl_keeps (fun t => t.ply) (fun t (f : QFrame) => reportDrop f.body t) (fun t f => by simp) _ s

theorem dropReports_brkActive (queue : List QFrame) (s : State) :
    (dropReports queue s).station.brkActive = s.station.brkActive :=
  foldl_keeps (fun t => t.station.brkActive) (fun t (f : QFrame) => reportDrop f.body t) (fun t f => by
    obtain ⟨gone, station⟩ := reportDrop_station f.body t
    rw [station]) _ s

theorem exec_warmRestart_due {s : State} (straps : Straps)
    (due : (s.station.restartPending && s.station.answerGone) = true) :
    exec (.warmRestart straps) s = .next (warmRestart straps s) := congrArg Host.Outcome.next (if_pos due)

/-- Settles O8: the queue's PKG frames are told to the former, and what the chapters keep stands beside the reset
values. -/
theorem warmRestartKeepsBanksPackagesAndCounts : Obligations.WarmRestartKeepsBanksPackagesAndCounts := by
  intro s straps
  refine ⟨fun early => congrArg Host.Outcome.next (if_neg (by simp [early])), fun due =>
    ⟨_, exec_warmRestart_due straps due, rfl, ?station, rfl, rfl, rfl, rfl, rfl, rfl, ?own, ?banks, ?former, ?ply⟩⟩
  case station =>
    rw [show (warmRestart straps s).station =
      { Station.reset with brkActive := (dropReports s.ply.queue s).station.brkActive } from rfl, dropReports_brkActive]
  case own =>
    have banks : (warmRestart straps s).banks = (dropReports s.ply.queue s).banks.set 0 .reset := rfl
    simp [State.bank, banks]
  case banks =>
    intro k other
    have banks : (warmRestart straps s).banks = (dropReports s.ply.queue s).banks.set 0 .reset := rfl
    rw [State.bank, State.bank, banks, dropReports_banks, Vector.toList_set, List.getD_eq_getElem?_getD,
      List.getElem?_set_ne (by omega), List.getD_eq_getElem?_getD]
  case former =>
    have former : (warmRestart straps s).former = (dropReports s.ply.queue s).former.afterRestart := rfl
    rw [former, dropReports_former]
    rfl
  case ply =>
    have ply : (warmRestart straps s).ply = (dropReports s.ply.queue s).ply.afterRestart := rfl
    rw [ply, dropReports_ply]
    rfl

end Sys2Proof.Machine
end

section
/-!
PROOF. Removals from the cause set with room in the transmit queue: CLR, CLEAR with and without force, and a RESUME from
the line (R154, R156, R166 to R168, R172).
-/

namespace Sys2Proof.Machine

open Sys2Proof.Safety

/-! ## The block once a removal has settled (R154, R156, R160, R165) -/

namespace Station

theorem settled_of_left {st : Station} (left : st.setEmpty = false) : st.settled = st := by
  rw [settled, if_neg (by simp [left])]

/-- The set emptied in EASING or STOPPED: RUN or READY with DEN to match, ALM off, and the first cause moved on. -/
theorem settled_of_emptied {st : Station} (empty : st.setEmpty = true)
    (held : st.state = .easing ∨ st.state = .stopped) :
    st.settled = st.noteEmptied.enter (if st.state = .easing then .run else .ready) := by
  unfold settled
  rw [if_pos empty]
  rcases held with state | state <;> rw [state] <;> rfl

@[simp] theorem settled_locals (st : Station) : st.settled.locals = st.locals := by
  unfold settled; (repeat' split) <;> rfl

@[simp] theorem settled_peers (st : Station) : st.settled.peers = st.peers := by
  unfold settled; (repeat' split) <;> rfl

theorem settled_state {st : Station} (held : st.state = .easing ∨ st.state = .stopped) : st.settled.state =
    if st.locals = [] ∧ st.peers = [] then (if st.state = .easing then .run else .ready) else st.state := by
  by_cases empty : st.setEmpty = true
  · rw [settled_of_emptied empty held, if_pos ((setEmpty_iff st).mp empty)]
    rfl
  · rw [settled_of_left (Bool.eq_false_of_not_eq_true empty), if_neg fun none => empty ((setEmpty_iff st).mpr none)]

theorem settled_alm {st : Station} (held : st.state = .easing ∨ st.state = .stopped) : st.settled.alm =
    if st.locals = [] ∧ st.peers = [] then false else st.alm := by
  by_cases empty : st.setEmpty = true
  · rw [settled_of_emptied empty held, if_pos ((setEmpty_iff st).mp empty)]
    rfl
  · rw [settled_of_left (Bool.eq_false_of_not_eq_true empty), if_neg fun none => empty ((setEmpty_iff st).mpr none)]

end Station

@[simp] theorem settleRemoval_queue (s : State) : (settleRemoval s).ply.queue = s.ply.queue := by
  unfold settleRemoval; dsimp only; (repeat' split) <;> simp [resumeRun]

@[simp] theorem settleRemoval_placeHeld (s : State) : (settleRemoval s).ply.placeHeld = s.ply.placeHeld := by
  unfold settleRemoval; dsimp only; (repeat' split) <;> simp [resumeRun, changeState]

theorem settleRemoval_room (s : State) : (settleRemoval s).ply.room = s.ply.room :=
  room_congr (settleRemoval_placeHeld s)

/-! ## CLR and CLEAR (R166 to R168) -/

/-- The local causes that their condition keeps (R166). -/
def keptCauses (s : State) : List LocalCause := s.station.locals.filter (fun c => !removable s c)

/-- BREAK stays while BRK is active, MAP_FULL while the map is full, and RUN_LIMIT until the run ends (R166). -/
theorem keptCauses_eq (s : State) : s.station.locals.filter (fun c => match c with
    | .brk => s.station.brkActive
    | .mapFull => decide (64 ≤ s.map.entries.length)
    | .runLimit => true
    | _ => false) = keptCauses s := by
  refine List.filter_congr fun c _ => ?_
  cases c
  case brk => exact (Bool.not_not _).symm
  case mapFull =>
    rw [removable, ← decide_not]
    exact decide_eq_decide.mpr not_lt.symm
  all_goals rfl

/-- A CLEAR of a set with a cause in it, with room for the RESUME. -/
theorem clearCauses_of_room {s : State} (force : Bool) (held : s.station.setEmpty = false)
    (room : s.ply.queue.length < s.ply.room) : clearCauses force s =
      if s.station.locals ≠ [] ∧ keptCauses s = [] then
        (settleRemoval (removeCauses force s)).setPly { (settleRemoval (removeCauses force s)).ply with
          queue := s.ply.queue ++ [fresh (.resume s.own)] }
      else settleRemoval (removeCauses force s) := by
  have locals : (settleRemoval (removeCauses force s)).station.locals = keptCauses s := by
    rw [settleRemoval_station, Station.settled_locals]
    rfl
  have own : (settleRemoval (removeCauses force s)).own = s.own := by rw [State.own, settleRemoval_start]; rfl
  have queue : (settleRemoval (removeCauses force s)).ply.queue = s.ply.queue := settleRemoval_queue _
  have left : (settleRemoval (removeCauses force s)).ply.queue.length <
      (settleRemoval (removeCauses force s)).ply.room := by
    rw [queue, settleRemoval_room]
    exact room
  have gone : (!s.station.locals.isEmpty && (settleRemoval (removeCauses force s)).station.locals.isEmpty) = true ↔
      s.station.locals ≠ [] ∧ keptCauses s = [] := by
    rw [locals]
    simp
  rw [clearCauses_of_held force held, resumeOwn]
  refine if_congr gone ?_ rfl
  rw [enqueue_of_room _ left, own, queue]

section Cleared

variable {s : State} (force : Bool) (held : s.station.setEmpty = false) (room : s.ply.queue.length < s.ply.room)
include held room

theorem clearCauses_station : (clearCauses force s).station = (removeCauses force s).station.settled := by
  rw [clearCauses_of_room force held room, ← settleRemoval_station]
  split <;> rfl

theorem clearCauses_queue : (clearCauses force s).ply.queue =
    if s.station.locals ≠ [] ∧ keptCauses s = [] then s.ply.queue ++ [fresh (.resume s.own)] else s.ply.queue := by
  rw [clearCauses_of_room force held room]
  split
  · rfl
  · exact settleRemoval_queue _

theorem clearCauses_blocks : (clearCauses force s).map = s.map ∧ (clearCauses force s).former = s.former ∧
    (clearCauses force s).banks = s.banks ∧ (clearCauses force s).twist = s.twist ∧
    (clearCauses force s).knot = s.knot ∧ (clearCauses force s).pace.run = s.pace.run ∧
    (clearCauses force s).length.acc = s.length.acc := by
  refine ⟨?_, ?_, by simp, by simp, by simp, ?_, calm_acc.clearCauses force s⟩ <;>
    rw [clearCauses_of_room force held room] <;> split <;> simp [removeCauses]

end Cleared

theorem exec_clrEdge_ignored {s : State} (idle : s.inRun = false ∨ s.station.setEmpty = true) :
    exec .clrEdge s = .next s := by
  change Host.Outcome.next (if s.inRun then clearCauses false s else s) = .next s
  rcases idle with idle | empty
  · rw [if_neg (by simp [idle])]
  · rw [clearCauses_of_empty false empty, ite_self]

theorem exec_clrEdge_of_run {s : State} (run : s.inRun = true) : exec .clrEdge s = .next (clearCauses false s) :=
  congrArg Host.Outcome.next (if_pos run)

/-- A lawful station with a cause held stands EASING or STOPPED (R153). -/
theorem stands_of_held {s : State} (lawful : StationLawful s) (held : s.station.setEmpty = false) :
    s.station.state = .easing ∨ s.station.state = .stopped := by
  obtain ⟨-, -, causes, -⟩ := lawful
  exact causes.mp held

/-- Settles O25: the block after CLR is the removal settled, and the rest is `clearCauses_of_room`. -/
theorem clrRemovesWhatMayBeRemoved : Obligations.ClrRemovesWhatMayBeRemoved := by
  intro s
  refine ⟨exec_clrEdge_ignored, fun run lawful held room => ?_⟩
  intro kept emptied
  have same : kept = keptCauses s := keptCauses_eq s
  have station := clearCauses_station false held room
  have peers : (removeCauses false s).station.peers = s.station.peers := rfl
  have locals : (removeCauses false s).station.locals = kept := same.symm
  have none : (removeCauses false s).station.setEmpty = true ↔ emptied := (setEmpty_iff _).trans (by
    rw [locals, peers])
  have standing : (removeCauses false s).station.state = .easing ∨ (removeCauses false s).station.state = .stopped :=
    stands_of_held (s := s) lawful held
  obtain ⟨map, former, banks, twist, knot, pace, acc⟩ := clearCauses_blocks false held room
  refine ⟨_, exec_clrEdge_of_run run, ?locals, ?peers, fun emptied => ?emptied, fun left => ?left, ?queue, acc, map,
    former, banks, twist, knot, pace⟩
  case locals => rw [station, Station.settled_locals, locals]
  case peers => rw [station, Station.settled_peers, peers]
  case emptied =>
    rw [station, Station.settled_of_emptied (none.mpr emptied) standing]
    exact ⟨rfl, rfl, rfl, rfl⟩
  case left =>
    rw [station, Station.settled_of_left (Bool.eq_false_of_not_eq_true fun empty => left (none.mp empty)), same]
    rfl
  case queue => rw [clearCauses_queue false held room, same]

/-! ## CLEAR and CLEAR FORCE as requests (R190, R191) -/

/-- A request performed and answered DONE takes its ANSWER's place at the end of the queue (R191, R192). -/
theorem receiveAsk_of_done {h : AskHead} {s u : State} (ask : asked h s) (service : serving s) {code : Byte}
    {args : List Byte} (short : args.length ≤ 22)
    (performed : perform code.toNat args (holdPlace true (heard s)) = (u, .done 0 [])) :
    receiveAsk code ⟨h, args⟩ s = queueAnswer h.sender.toNat [h.tag, code, 0, 0] false u := by
  rw [receiveAsk_of_asked ask code short, performAsk_of_serving (s := holdPlace true (heard s)) service, performed]
  dsimp only
  rw [payload_eq, BitVec.ofNat_toNat, BitVec.setWidth_eq]
  rfl

theorem doClear_of_serving {s : State} (service : serving s) :
    doClear [] s = (clearCauses false s, .done 0 []) ∧ doClear [1] s = (clearCauses true s, .done 0 []) :=
  ⟨if_pos service.2, if_pos service.2⟩

/-- What a CLEAR leaves, whether a cause was held or not, with room for the RESUME: the local causes kept, `peers` of
the peer records, and no other block but those the transition touches. -/
structure Cleared (s : State) (peers : List PeerHalt) (t : State) : Prop where
  locals : t.station.locals = keptCauses s
  records : t.station.peers = peers
  queue : t.ply.queue = s.ply.queue ++
    if s.station.locals ≠ [] ∧ keptCauses s = [] then [fresh (.resume s.own)] else []
  state : t.station.state = if keptCauses s = [] ∧ peers = [] then
    (if s.station.state = .easing then .run else if s.station.state = .stopped then .ready else s.station.state)
    else s.station.state
  alm : t.station.alm = if keptCauses s = [] ∧ peers = [] then false else true
  blocks : t.map = s.map ∧ t.former = s.former ∧ t.banks = s.banks ∧ t.twist = s.twist ∧ t.knot = s.knot ∧
    t.pace.run = s.pace.run ∧ t.length.acc = s.length.acc

theorem clearCauses_cleared {s : State} (force : Bool) (lawful : StationLawful s)
    (room : s.ply.queue.length < s.ply.room) :
    Cleared s (if force then [] else s.station.peers) (clearCauses force s) := by
  obtain ⟨-, -, causes, alm, -⟩ := lawful
  cases held : s.station.setEmpty
  case true =>
    obtain ⟨locals, peers⟩ := (setEmpty_iff _).mp held
    have none : keptCauses s = [] := by rw [keptCauses, locals]; rfl
    have standing : s.station.state ≠ .easing ∧ s.station.state ≠ .stopped :=
      not_or.mp fun stands => by simp [causes.mpr stands] at held
    rw [clearCauses_of_empty force held]
    exact {
      locals := by rw [locals, none]
      records := by rw [peers, ite_self]
      queue := by simp [locals]
      state := by simp [standing]
      alm := by rw [if_pos ⟨none, by rw [peers, ite_self]⟩, alm, held]; rfl
      blocks := ⟨rfl, rfl, rfl, rfl, rfl, rfl, rfl⟩ }
  case false =>
    have standing : (removeCauses force s).station.state = .easing ∨ (removeCauses force s).station.state = .stopped :=
      causes.mp held
    have station := clearCauses_station force held room
    have lit : (removeCauses force s).station.alm = true := alm.trans (by rw [held]; rfl)
    exact {
      locals := by rw [station, Station.settled_locals]; rfl
      records := by rw [station, Station.settled_peers]; rfl
      queue := by
        rw [clearCauses_queue force held room]
        split
        · rfl
        · exact (List.append_nil _).symm
      state := by
        rw [station, Station.settled_state standing]
        refine if_congr Iff.rfl ?_ rfl
        rcases causes.mp held with state | state
        · rw [if_pos state]
          exact if_pos state
        · rw [state]
          exact if_neg (by rw [show (removeCauses force s).station.state = s.station.state from rfl, state]; nofun)
      alm := by rw [station, Station.settled_alm standing, lit]; rfl
      blocks := clearCauses_blocks force held room }

/-- Settles O47: both requests are `clearCauses` with a place held for the ANSWER. -/
theorem clearRequestsEmptyTheCauseSet : Obligations.ClearRequestsEmptyTheCauseSet := by
  intro s h ask service lawful places kept cleared
  obtain ⟨plain, forced⟩ := doClear_of_serving (s := holdPlace true (heard s)) service
  have room : (holdPlace true (heard s)).ply.queue.length < (holdPlace true (heard s)).ply.room := by
    change s.ply.queue.length < 7
    omega
  have same : kept = keptCauses (holdPlace true (heard s)) := keptCauses_eq s
  have outcome (force : Bool) : cleared (if force then [] else s.station.peers)
      (queueAnswer h.sender.toNat [h.tag, 12, 0, 0] false (clearCauses force (holdPlace true (heard s)))) := by
    have done := clearCauses_cleared (s := holdPlace true (heard s)) force lawful room
    obtain ⟨map, former, banks, twist, -, pace, acc⟩ := done.blocks
    refine ⟨done.locals.trans same.symm, done.records, ?queue, ?state, ?alm, map, former, banks, twist, acc, pace⟩
    case queue =>
      rw [same]
      exact congrArg (· ++ [answerTo h 12 0 0 []]) done.queue
    case state =>
      rw [same]
      refine done.state.trans (if_congr Iff.rfl ?_ rfl)
      change (if s.station.state = .easing then _ else if s.station.state = .stopped then _ else s.station.state) = _
      cases s.station.state <;> rfl
    case alm =>
      rw [same]
      exact done.alm
  refine ⟨⟨_, congrArg Host.Outcome.next (receiveAsk_of_done (code := 12) ask service (Nat.zero_le _) plain),
    outcome false⟩, ⟨_, congrArg Host.Outcome.next (receiveAsk_of_done (code := 12) ask service ?_ forced),
    outcome true⟩⟩
  exact Nat.le_of_ble_eq_true rfl

end Sys2Proof.Machine
end

section
/-!
PROOF. RESUME and GO from the line, and GO as a request (R152, R154, R172).
-/

namespace Sys2Proof.Machine

open Sys2Proof.Safety

/-! ## URGENT frames addressed to this station (R180, R187, R188) -/

theorem field_byte {x : Nat} (station : x ≤ 62) (rest : List Byte) : field 0 1 (BitVec.ofNat 8 x :: rest) = x := by
  rw [field_one]
  exact Nat.mod_eq_of_lt (by omega)

/-- An origin byte reads back (R180). -/
theorem readOrigin_byte {x : Nat} (low : 1 ≤ x) (high : x ≤ 62) : readOrigin [BitVec.ofNat 8 x] = some x := by
  rw [readOrigin, field_byte high, if_pos (by simp [isStation, low, high])]

theorem exec_resumeFrame_of_heard {s : State} {f : RxFrame} (addressed : hears f.sender f.dest s)
    (length : f.payload.length = 1) : exec (.resumeFrame f) s =
      .next (if s.station.state.reports = false then heard s else resumeFrame f (heard s)) := by
  have received : receive 3 f s = handOn 3 f (heard s) :=
    receive_of_heard addressed (by decide) (by omega) (by rw [length]; rfl)
  refine (congrArg Host.Outcome.next received).trans (congrArg _ ?_)
  change (if !s.station.state.reports then _ else _) = _
  cases s.station.state.reports <;> rfl

theorem exec_goFrame_of_heard {s : State} {f : RxFrame} (addressed : hears f.sender f.dest s)
    (length : f.payload.length = 1) : exec (.goFrame f) s =
      .next (if s.station.state.reports = false then heard s else goFrame f (heard s)) := by
  have received : receive 4 f s = handOn 4 f (heard s) :=
    receive_of_heard addressed (by decide) (by omega) (by rw [length]; rfl)
  refine (congrArg Host.Outcome.next received).trans (congrArg _ ?_)
  change (if !s.station.state.reports then _ else _) = _
  cases s.station.state.reports <;> rfl

/-! ## RESUME (R154, R172) -/

theorem takeResume_of_none {s : State} {x : Nat} (none : ∀ p ∈ s.station.peers, p.origin ≠ x) :
    takeResume x s = s := by
  refine if_neg ?_
  rw [List.any_eq_true]
  rintro ⟨p, mem, same⟩
  exact none p mem (beq_iff_eq.mp same)

/-- The record of an origin taken out (R172). -/
def removePeer (x : Nat) (s : State) : State :=
  s.setStation { s.station with peers := s.station.peers.filter (fun p => p.origin != x) }

/-- With room the RESUME is relayed first, and the removal settles. -/
theorem takeResume_of_room {s : State} {x : Nat} (found : ∃ p ∈ s.station.peers, p.origin = x)
    (room : s.ply.queue.length < s.ply.room) : takeResume x s =
      settleRemoval ((removePeer x s).setPly { s.ply with queue := s.ply.queue ++ [fresh (.resume x)] }) := by
  obtain ⟨p, mem, same⟩ := found
  have holds : s.station.peers.any (fun p => p.origin == x) = true :=
    List.any_eq_true.mpr ⟨p, mem, beq_iff_eq.mpr same⟩
  rw [takeResume, if_pos holds]
  exact congrArg settleRemoval (enqueue_of_room (s := removePeer x s) _ room)

theorem resumeFrame_of_read {f : RxFrame} {x : Nat} (read : readOrigin f.payload = some x) (s : State) :
    resumeFrame f s = takeResume x s := by
  rw [resumeFrame, read]

/-- Settles O39: the removal is settled with the RESUME queued before it. -/
theorem resumeFrameRemovesTheRecordOfItsOrigin : Obligations.ResumeFrameRemovesTheRecordOfItsOrigin := by
  intro s f x addressed low high payload
  have read : readOrigin f.payload = some x := by rw [payload, readOrigin_byte low high]
  have received := exec_resumeFrame_of_heard addressed (by rw [payload]; rfl)
  rw [resumeFrame_of_read read] at received
  refine ⟨fun none => ?ignored, fun found lawful run room => ?taken⟩
  case ignored =>
    rw [received, takeResume_of_none (s := heard s) none, ite_self]
  case taken =>
    intro left
    rw [reports_of_inRun run, if_neg nofun, takeResume_of_room (s := heard s) found room] at received
    refine ⟨_, received, ?_⟩
    have held : s.station.setEmpty = false := by
      obtain ⟨p, mem, -⟩ := found
      simp [Station.setEmpty, List.ne_nil_of_mem mem]
    have standing : (removePeer x (heard s)).station.state = .easing ∨
        (removePeer x (heard s)).station.state = .stopped :=
      stands_of_held (s := s) lawful held
    refine ⟨?peers, ?locals, ?queue, ?state, ?alm, ?map, ?former, ?banks, ?twist, ?pace, ?acc⟩
    case peers => rw [settleRemoval_station, Station.settled_peers]; rfl
    case locals => rw [settleRemoval_station, Station.settled_locals]; rfl
    case queue => rw [settleRemoval_queue]; rfl
    case state =>
      rw [settleRemoval_station]
      exact (Station.settled_state standing).trans (if_congr and_comm rfl rfl)
    case alm =>
      rw [settleRemoval_station]
      exact (Station.settled_alm standing).trans (if_congr and_comm rfl rfl)
    case acc => exact calm_acc.settleRemoval _
    case map => rw [settleRemoval_map]; rfl
    case former => rw [settleRemoval_former]; rfl
    case banks => rw [settleRemoval_banks]; rfl
    case twist => rw [settleRemoval_twist]; rfl
    case pace => rw [settleRemoval_run]; rfl

/-! ## GO (R152) -/

/-- What a GO queued with room leaves: RUN with DEN on, the frame at the end of the queue, the slot refreshed and the
dwell countdown loaded. -/
structure Gone (origin : Nat) (s t : State) : Prop where
  station : t.station = { s.station with state := .run, den := true }
  queue : t.ply.queue = s.ply.queue ++ [fresh (.go origin)]
  pace : t.pace = { s.pace with period := s.cfg.pacePeriod }
  length : t.length = { s.length with dwellCount := s.cfg.dwellTime * 10 }
  blocks : t.map = s.map ∧ t.former = s.former ∧ t.banks = s.banks

theorem takeGo_gone {s : State} (origin : Nat) (room : s.ply.queue.length < s.ply.room) :
    Gone origin s (takeGo origin s) := by
  rw [takeGo_of_room origin room]
  constructor
  case station => simp [Station.enter, StationState.driven]
  case queue => simp
  case pace => simp [refreshPace, Station.enter, StationState.reports, State.cfg]
  case length => simp [loadDwell_length, State.cfg]
  case blocks => simp

theorem goFrame_ignored {f : RxFrame} {s : State} (other : s.station.state ≠ .ready ∨ s.peerOf f.sender.toNat = none) :
    goFrame f s = s := by
  unfold goFrame
  rcases other with other | unknown
  · split
    · exact if_neg other
    · rfl
  · rw [unknown]
    cases readOrigin f.payload <;> rfl

/-- Settles O40: `takeGo` with the frame's origin. -/
theorem goFrameStartsAReadyStation : Obligations.GoFrameStartsAReadyStation := by
  intro s f x addressed low high payload
  have received := exec_goFrame_of_heard addressed (by rw [payload]; rfl)
  refine ⟨fun other => ?ignored, fun e ready peer room => ?taken⟩
  case ignored => rw [received, goFrame_ignored (s := heard s) other, ite_self]
  case taken =>
    have read : readOrigin f.payload = some x := by rw [payload, readOrigin_byte low high]
    have gone := takeGo_gone (s := heard s) x room
    have taken : goFrame f (heard s) = takeGo x (heard s) := by
      rw [goFrame, read, show (heard s).peerOf f.sender.toNat = some e from peer]
      exact if_pos ready
    rw [taken, if_neg (by rw [ready]; nofun)] at received
    obtain ⟨map, former, banks⟩ := gone.blocks
    refine ⟨_, received, gone.station, gone.queue, gone.pace, ?_, map, former, banks⟩
    rw [gone.length]
    rfl

end Sys2Proof.Machine
end

section
/-!
PROOF. A cause taken while a run exists: what it leaves of cause set, station state and queue, whatever the entry to
STOPPED logs on its way; and the GO and STOP requests (R152, R153, R155, R160 to R165, R169).
-/

namespace Sys2Proof.Machine

open Sys2Proof.Safety

/-! ## A STOPPED station with a cause held -/

/-- The station stands STOPPED with DEN off and ALM on. Of the causes of `u` none is gone and none comes before the
first, of its URGENT frames none is gone, and of its drops none is forgotten. -/
structure Struck (u s : State) : Prop where
  state : s.station.state = .stopped
  den : s.station.den = false
  alm : s.station.alm = true
  held : s.station.setEmpty = false
  first : s.station.firstCause = u.station.firstCause
  peers : s.station.peers = u.station.peers
  locals : ∀ c ∈ u.station.locals, c ∈ s.station.locals
  pin : s.station.brkActive = u.station.brkActive
  urgent : ∀ f ∈ u.ply.queue, f.body.urgent = true → f ∈ s.ply.queue
  drops : u.ply.queueDrops ≤ s.ply.queueDrops ∨ s.ply.queueDrops = 65535

/-- A frame queued puts out no URGENT frame, and is queued itself or counted when it is URGENT (R185). -/
theorem enqueue_urgent (b : TxBody) (s : State) :
    (∀ f ∈ s.ply.queue, f.body.urgent = true → f ∈ (enqueue b s).ply.queue) ∧
    ((enqueue b s).ply.queueDrops = s.ply.queueDrops ∨
      (enqueue b s).ply.queueDrops = sat Config.count16 s.ply.queueDrops) ∧
    (fresh b ∈ (enqueue b s).ply.queue ∨ (enqueue b s).ply.queueDrops = sat Config.count16 s.ply.queueDrops) := by
  unfold enqueue
  dsimp only
  split
  · exact ⟨fun f mem _ => List.mem_append_left _ mem, .inl rfl, .inl List.mem_concat_self⟩
  · split
    · split
      · rename_i victim rest taken
        obtain ⟨pre, post, split, rfl, light, -⟩ := takeLast_some taken
        rw [reportDrop_ply]
        refine ⟨fun f mem urgent => ?_, .inr rfl, .inl List.mem_concat_self⟩
        rw [split, List.mem_append, List.mem_cons] at mem
        rw [State.setPly_ply]
        refine List.mem_append_left _ (List.mem_append.mpr ?_)
        rcases mem with before | rfl | after
        · exact .inl before
        · simp [urgent] at light
        · exact .inr after
      · rw [reportDrop_ply]
        exact ⟨fun f mem _ => mem, .inr rfl, .inr rfl⟩
    · rw [reportDrop_ply]
      exact ⟨fun f mem _ => mem, .inr rfl, .inr rfl⟩

theorem sat_drops {m n : Nat} (before : m ≤ n ∨ n = 65535) :
    m ≤ sat Config.count16 n ∨ sat Config.count16 n = 65535 := by
  unfold sat Config.count16
  omega

namespace Struck

variable {u s : State}

theorem enqueue (struck : Struck u s) (b : TxBody) : Struck u (Machine.enqueue b s) := by
  obtain ⟨gone, station⟩ := enqueue_station b s
  obtain ⟨kept, counted, -⟩ := enqueue_urgent b s
  refine { struck with
    state := by rw [station]; exact struck.state
    den := by rw [station]; exact struck.den
    alm := by rw [station]; exact struck.alm
    held := by rw [station]; exact struck.held
    first := by rw [station]; exact struck.first
    peers := by rw [station]; exact struck.peers
    locals := by rw [station]; exact struck.locals
    pin := by rw [station]; exact struck.pin
    urgent := fun f mem urgent => kept f (struck.urgent f mem urgent) urgent
    drops := ?_ }
  rcases counted with same | counted
  · rw [same]
    exact struck.drops
  · rw [counted]
    exact sat_drops struck.drops

theorem raiseSoft (struck : Struck u s) (c : LocalCause) : Struck u (Machine.raiseSoft c s) := by
  obtain same | taken := raiseSoft_of_stopped struck.state c
  · rwa [same]
  · rw [taken]
    have first : (s.station.takeLocal s.own c).firstCause = s.station.firstCause :=
      if_neg (by simp [struck.held])
    exact { struck with
      alm := rfl
      held := by simp [Station.setEmpty, Station.takeLocal]
      first := first.trans struck.first
      locals := fun x mem => List.mem_append_left _ (struck.locals x mem) }

theorem frame {t : State} (struck : Struck u s) (same : SameControl s t) : Struck u t where
  state := same.state.trans struck.state
  den := same.den.trans struck.den
  alm := same.alm.trans struck.alm
  held := same.setEmpty.trans struck.held
  first := same.firstCause.trans struck.first
  peers := same.peers.trans struck.peers
  locals := by rw [same.locals]; exact struck.locals
  pin := same.pin.trans struck.pin
  urgent := by rw [same.queue]; exact struck.urgent
  drops := by rw [same.drops]; exact struck.drops

theorem eventKeeps (u : State) : EventKeeps (Struck u) where
  frame := frame
  queue b struck := struck.enqueue b
  raise _ struck := struck.raiseSoft _
  recut struck _ := { struck with }
  arrive _ struck _ := { struck with }

/-- A station with a cause held stands STOPPED. -/
theorem entered (lit : u.station.alm = true) (held : u.station.setEmpty = false) :
    Struck u (u.setStation (u.station.enter .stopped)) where
  state := rfl
  den := rfl
  alm := lit
  held := held
  first := rfl
  peers := rfl
  locals _ mem := mem
  pin := rfl
  urgent _ mem _ := mem
  drops := .inl le_rfl

/-- A HARD cause stops the station whatever state its run is in (R153, R155). -/
theorem actLevel (lit : u.station.alm = true) (held : u.station.setEmpty = false) (run : u.inRun = true)
    (unpowered : u.station.state = .stopped → u.station.den = false) : Struck u (Machine.actLevel .hard u) := by
  have stopped := entered lit held
  unfold Machine.actLevel
  dsimp only
  split
  · exact stopped.frame (.of_station (by simp [stopFromReady]) (by simp [stopFromReady, changeState]))
  · exact (eventKeeps u).enterStopped stopped
  · exact (eventKeeps u).enterStopped stopped
  · rename_i notReady notRun notEasing
    have state : u.station.state = .stopped :=
      (((inRun_cases run).resolve_left notReady).resolve_left notRun).resolve_left notEasing
    exact { stopped with state := state, den := unpowered state }

end Struck

/-! ## A cause of either level (R153, R160) -/

/-- Where a cause of a level takes a station in a run (R153). -/
def struckState (a : StationState) (l : Level) : StationState :=
  match a, l with
  | .run, .soft => .easing
  | .easing, .soft => .easing
  | _, _ => .stopped

theorem Station.Caused.softened_state {st t : Station} (lawful : st.Lawful) (caused : st.Caused .soft t)
    (run : st.state.inRun = true) : t.softened.state = struckState st.state .soft := by
  unfold Station.softened
  rw [caused.state]
  cases state : st.state
  case run =>
    have free : t.hardHeld = false := by
      by_contra held
      have hard := (caused.hard (by simpa using held)).resolve_right nofun
      rw [lawful.free_of_driven (by rw [state]; rfl)] at hard
      cases hard
    dsimp only
    rw [if_neg (by simp [free])]
    rfl
  case ready => rfl
  case easing | stopped => exact caused.state.trans state
  all_goals simp [state, StationState.inRun] at run

/-- What a cause leaves of the station, once it is in the set as `t` has it. -/
structure Acted (a : StationState) (l : Level) (t s : State) : Prop where
  state : s.station.state = struckState a l
  alm : s.station.alm = true
  peers : s.station.peers = t.station.peers
  locals : ∀ c ∈ t.station.locals, c ∈ s.station.locals
  drops : t.ply.queueDrops ≤ s.ply.queueDrops ∨ s.ply.queueDrops = 65535

theorem actSoft_sameLine (s : State) : (actSoft s).ply.queueDrops = s.ply.queueDrops := by
  unfold actSoft; (repeat' split) <;> simp [stopFromReady, ease, changeState]

/-- A HARD cause in the set of a lawful station in a run stops it (R153). -/
theorem actLevel_struck {s t : State} {l : Level} (lawful : s.station.Lawful) (run : s.inRun = true)
    (caused : s.station.Caused l t.station) : Struck t (actLevel .hard t) := by
  have inRun : t.inRun = true := by rwa [State.inRun, caused.state]
  refine Struck.actLevel caused.alm caused.held inRun fun stopped => ?_
  rw [caused.den, lawful.1.1, ← caused.state, stopped]
  rfl

theorem actLevel_acted {s t : State} {l : Level} (lawful : s.station.Lawful) (run : s.inRun = true)
    (caused : s.station.Caused l t.station) : Acted s.station.state l t (actLevel l t) := by
  cases l with
  | soft =>
    have acted : actLevel .soft t = actSoft t := rfl
    rw [acted]
    constructor
    case state => rw [actSoft_station, caused.softened_state lawful run]
    case alm => rw [actSoft_station, Station.softened_alm, caused.alm]
    case peers => rw [actSoft_station, Station.softened_peers]
    case locals =>
      rw [actSoft_station, Station.softened_locals]
      exact fun c mem => mem
    case drops => exact .inl (actSoft_sameLine t).ge
  | hard =>
    have struck := actLevel_struck lawful run caused
    have state : struckState s.station.state .hard = .stopped := by cases s.station.state <;> rfl
    exact ⟨struck.state.trans state.symm, struck.alm, struck.peers, struck.locals, struck.drops⟩

/-- A new local cause enters the set, is announced and acts (R153, R161, R169). -/
theorem raiseLocal_of_new {s : State} {c : LocalCause} (run : s.inRun = true) (new : c ∉ s.station.locals) :
    raiseLocal c s = actLevel c.level (announce c (s.setStation (s.station.takeLocal s.own c))) := by
  simp [raiseLocal, run, new]

theorem raiseLocal_unchanged {s : State} {c : LocalCause} (idle : s.inRun = false ∨ c ∈ s.station.locals) :
    raiseLocal c s = s := by
  rcases idle with idle | held
  · simp [raiseLocal, idle]
  · simp [raiseLocal, held]

/-- The set with the new cause in it, HALT announced (R169). -/
def announced (c : LocalCause) (s : State) : State := announce c (s.setStation (s.station.takeLocal s.own c))

theorem announced_stands (c : LocalCause) (s : State) :
    StationStands (s.station.takeLocal s.own c) (announced c s) := announce_station c _

theorem raiseLocal_acted {s : State} {c : LocalCause} (lawful : StationLawful s) (run : s.inRun = true)
    (new : c ∉ s.station.locals) : Acted s.station.state c.level (announced c s) (raiseLocal c s) := by
  rw [raiseLocal_of_new run new]
  exact actLevel_acted lawful.2 run (Ruled.caused_announce lawful.2 c)

/-! ## GO and STOP as requests (R152, R163) -/

theorem levelOf_level (l : Level) : Code.levelOf (BitVec.ofNat 8 (Code.level l)).toNat = some l := by
  cases l <;> rfl

/-- The cause that STOP(level) raises (R163). -/
def stopCause (l : Level) : LocalCause := if l = .hard then .localStop else .requestStop

theorem stopCause_level (l : Level) : (stopCause l).level = l := by cases l <;> rfl

theorem doStop_of_idle {s : State} (l : Level) (idle : s.inRun = false) :
    doStop [BitVec.ofNat 8 (Code.level l)] s = refuse .state s := by
  rw [doStop, levelOf_level]
  exact if_pos (by simp [idle])

theorem doStop_of_run {s : State} (l : Level) (run : s.inRun = true) :
    doStop [BitVec.ofNat 8 (Code.level l)] s = (raiseLocal (stopCause l) s, .done 0 []) := by
  rw [doStop, levelOf_level]
  refine (if_neg (by simp [run])).trans ?_
  cases l <;> rfl

/-- A request refused changes nothing but the line, whatever bars it. -/
theorem receiveAsk_refused {h : AskHead} {s : State} {code : Byte} {args : List Byte} {r : Refuse} (ask : asked h s)
    (short : args.length ≤ 22)
    (refused : performAsk code.toNat args (holdPlace true (heard s)) = refuse r (holdPlace true (heard s))) :
    receiveAsk code ⟨h, args⟩ s = answered h code 2 (BitVec.ofNat 8 r.code) [] s :=
  receiveAsk_of_performed ask short rfl refused

/-- A request refused with STATE changes nothing but the line (R190, R192). -/
theorem receiveAsk_of_refused {h : AskHead} {s : State} (ask : asked h s) (service : serving s) {code : Byte}
    {args : List Byte} (short : args.length ≤ 22)
    (refused : perform code.toNat args (holdPlace true (heard s)) = refuse .state (holdPlace true (heard s))) :
    receiveAsk code ⟨h, args⟩ s = answered h code 2 1 [] s :=
  receiveAsk_refused ask short ((performAsk_of_serving (s := holdPlace true (heard s)) service _ _).trans refused)

/-- Settles O46: GO is `takeGo`, and STOP raises its cause, with a place held for the ANSWER. -/
theorem goAndStopRequestsActOnTheStationState : Obligations.GoAndStopRequestsActOnTheStationState := by
  intro s h ask service
  have one (x : Byte) : [x].length ≤ 22 := Nat.le_of_ble_eq_true rfl
  refine ⟨fun other => ?refusedGo, fun ready places => ?go, fun l idle => ?refusedStop, fun l run lawful => ?stop⟩
  case refusedGo =>
    exact congrArg Host.Outcome.next (receiveAsk_of_refused (code := 10) ask service (Nat.zero_le _) (if_neg other))
  case go =>
    have room : (holdPlace true (heard s)).ply.queue.length < (holdPlace true (heard s)).ply.room := by
      change s.ply.queue.length < 7
      omega
    have gone := takeGo_gone (s := holdPlace true (heard s)) (holdPlace true (heard s)).own room
    have performed : perform 10 [] (holdPlace true (heard s)) =
      (takeGo (holdPlace true (heard s)).own (holdPlace true (heard s)), .done 0 []) := if_pos ready
    generalize takeGo _ _ = u at gone performed
    obtain ⟨map, former, banks⟩ := gone.blocks
    refine ⟨_, congrArg Host.Outcome.next (receiveAsk_of_done (code := 10) ask service (Nat.zero_le _) performed),
      gone.station, ?_, gone.length, map, former, banks⟩
    refine (congrArg (· ++ [answerTo h 10 0 0 []]) gone.queue).trans ?_
    exact List.append_assoc _ _ _
  case refusedStop =>
    exact congrArg Host.Outcome.next (receiveAsk_of_refused (code := 11) ask service (one _)
      (doStop_of_idle (s := holdPlace true (heard s)) l idle))
  case stop =>
    intro c
    have performed := receiveAsk_of_done (code := 11) ask service (one _)
      (doStop_of_run (s := holdPlace true (heard s)) l run)
    refine ⟨_, congrArg Host.Outcome.next performed, ?_⟩
    by_cases held : c ∈ s.station.locals
    · have ignored := raiseLocal_unchanged (s := holdPlace true (heard s)) (c := stopCause l) (.inr held)
      have lit : s.station.alm = true := by
        obtain ⟨-, -, -, alm, -⟩ := lawful
        simp [alm, Station.setEmpty, List.ne_nil_of_mem held]
      rw [ignored]
      exact ⟨held, fun x mem => mem, lit, List.getLast?_concat, fun _ => rfl, fun new => absurd held new, rfl, rfl⟩
    · have acted := raiseLocal_acted (s := holdPlace true (heard s)) (c := stopCause l) lawful run held
      obtain ⟨gone, station⟩ := announced_stands (stopCause l) (holdPlace true (heard s))
      have locals : (announced (stopCause l) (holdPlace true (heard s))).station.locals = s.station.locals ++ [c] := by
        rw [station]
        rfl
      have kept := acted.locals
      rw [locals] at kept
      have state := acted.state
      rw [stopCause_level] at state
      have acc := calm_acc.raiseLocal (stopCause l) (holdPlace true (heard s))
      have start := calm_start.raiseLocal (stopCause l) (holdPlace true (heard s))
      refine ⟨kept c List.mem_concat_self, fun x mem => kept x (List.mem_append_left _ mem), acted.alm,
        List.getLast?_concat, fun old => absurd old held, fun _ => state, acc, start⟩

end Sys2Proof.Machine
end

section
/-!
PROOF. A HALT from the line: its record, the relay, and PEER_OVERFLOW in the place of a ninth (R153, R169 to R171).
-/

namespace Sys2Proof.Machine

open Sys2Proof.Safety

theorem exec_haltFrame_of_heard {s : State} {f : RxFrame} (addressed : hears f.sender f.dest s)
    (length : f.payload.length = 2) : exec (.haltFrame f) s =
      .next (if s.station.state.reports = false then heard s else haltFrame f (heard s)) := by
  have received : receive 2 f s = handOn 2 f (heard s) :=
    receive_of_heard addressed (by decide) (by omega) (by rw [length]; rfl)
  refine (congrArg Host.Outcome.next received).trans (congrArg _ ?_)
  change (if !s.station.state.reports then _ else _) = _
  cases s.station.state.reports <;> rfl

theorem readHalt_bytes {x : Nat} (low : 1 ≤ x) (high : x ≤ 62) (l : Level) :
    readHalt [BitVec.ofNat 8 x, BitVec.ofNat 8 (Code.level l)] = some ⟨x, l⟩ := by
  have level : Code.levelOf (field 1 1 [BitVec.ofNat 8 x, BitVec.ofNat 8 (Code.level l)]) = some l := by
    rw [field_one]
    exact levelOf_level l
  rw [readHalt, level, field_byte high]
  exact if_pos (by simp [isStation, low, high])

theorem haltFrame_of_unknown {f : RxFrame} {s : State} (unknown : s.peerOf f.sender.toNat = none) :
    haltFrame f s = s := by
  rw [haltFrame, unknown]
  cases readHalt f.payload <;> rfl

theorem haltFrame_of_peer {f : RxFrame} {s : State} {r : PeerHalt} {e : ListenEntry}
    (read : readHalt f.payload = some r) (peer : s.peerOf f.sender.toNat = some e) :
    haltFrame f s = takeHalt e r s := by
  rw [haltFrame, read, peer]

theorem sat_drops_grown {m n : Nat} (before : m ≤ n ∨ n = 65535) :
    m < sat Config.count16 n ∨ sat Config.count16 n = 65535 := by
  unfold sat Config.count16
  omega

/-! ## What becomes of a HALT (R170, R171) -/

theorem takeHalt_ignored {e : ListenEntry} {r : PeerHalt} {s : State}
    (other : s.inRun = false ∨ r.origin = s.own ∨ ∃ p ∈ s.station.peers, p.origin = r.origin) : takeHalt e r s = s := by
  refine if_neg fun taken => ?_
  simp only [Bool.and_eq_true, bne_iff_ne, ne_eq, Bool.not_eq_true', List.any_eq_false, beq_iff_eq] at taken
  obtain ⟨⟨run, foreign⟩, new⟩ := taken
  rcases other with idle | own | ⟨p, mem, same⟩
  · simp [run] at idle
  · exact foreign own
  · exact new p mem same

section New

variable {e : ListenEntry} {r : PeerHalt} {s : State} (run : s.inRun = true) (foreign : r.origin ≠ s.own)
  (new : ∀ p ∈ s.station.peers, p.origin ≠ r.origin)
include run foreign new

theorem takeHalt_new : takeHalt e r s =
    if s.station.peers.length < Config.haltCapacity then
      enqueue (.halt r.origin (if e.follow = .soft then .soft else r.level))
        (actLevel (if e.follow = .soft then .soft else r.level)
          (s.setStation (s.station.takePeer ⟨r.origin, if e.follow = .soft then .soft else r.level⟩)))
    else raiseSoft .peerOverflow s := by
  refine if_pos ?_
  simp only [Bool.and_eq_true, bne_iff_ne, ne_eq, Bool.not_eq_true', List.any_eq_false, beq_iff_eq]
  exact ⟨⟨run, foreign⟩, new⟩

theorem takeHalt_full (full : Config.haltCapacity ≤ s.station.peers.length) :
    takeHalt e r s = raiseSoft .peerOverflow s := by
  rw [takeHalt_new run foreign new, if_neg (not_lt.mpr full)]

/-- With room for a record it enters the set, acts at the followed level, and its HALT is queued or a drop is
counted. -/
theorem takeHalt_taken (lawful : StationLawful s) (room : s.station.peers.length < 8) {level : Level}
    (followed : level = if e.follow = .soft then .soft else r.level) :
    (takeHalt e r s).station.peers = s.station.peers ++ [⟨r.origin, level⟩] ∧
    (∀ c ∈ s.station.locals, c ∈ (takeHalt e r s).station.locals) ∧ (takeHalt e r s).station.alm = true ∧
    (takeHalt e r s).station.state = struckState s.station.state level ∧
    (fresh (.halt r.origin level) ∈ (takeHalt e r s).ply.queue ∨
      s.ply.queueDrops < (takeHalt e r s).ply.queueDrops ∨ (takeHalt e r s).ply.queueDrops = 65535) := by
  have caused := Station.caused_takePeer lawful.2 ⟨r.origin, level⟩
  have acted := actLevel_acted (t := s.setStation (s.station.takePeer ⟨r.origin, level⟩)) lawful.2 run caused
  have relayed : takeHalt e r s = enqueue (.halt r.origin level)
      (actLevel level (s.setStation (s.station.takePeer ⟨r.origin, level⟩))) := by
    rw [takeHalt_new run foreign new, followed]
    exact if_pos room
  rw [relayed]
  obtain ⟨gone, station⟩ := enqueue_station (.halt r.origin level)
    (actLevel level (s.setStation (s.station.takePeer ⟨r.origin, level⟩)))
  obtain ⟨-, -, queued⟩ := enqueue_urgent (.halt r.origin level)
    (actLevel level (s.setStation (s.station.takePeer ⟨r.origin, level⟩)))
  rw [station]
  refine ⟨acted.peers, acted.locals, acted.alm, acted.state, queued.imp_right fun counted => ?_⟩
  rw [counted]
  exact sat_drops_grown acted.drops

end New

/-- A SOFT cause leaves EASING and STOPPED (R153). -/
theorem Station.softened_of_held {st : Station} (held : st.state = .easing ∨ st.state = .stopped) :
    st.softened = st := by
  unfold Station.softened
  rcases held with state | state <;> rw [state]

/-- Settles O38: the frame reads back and `takeHalt` makes the record, relays it, or raises PEER_OVERFLOW. -/
theorem haltFrameMakesARecordAndIsRelayed : Obligations.HaltFrameMakesARecordAndIsRelayed := by
  intro s f x l addressed low high payload
  have read : readHalt f.payload = some ⟨x, l⟩ := by rw [payload, readHalt_bytes low high]
  have received := exec_haltFrame_of_heard addressed (by rw [payload]; rfl)
  have taken {e : ListenEntry} (run : s.inRun = true) (peer : s.peerOf f.sender.toNat = some e) :
      exec (.haltFrame f) s = .next (takeHalt e ⟨x, l⟩ (heard s)) := by
    rw [received, if_neg (by rw [reports_of_inRun run]; nofun), haltFrame_of_peer (s := heard s) read peer]
  refine ⟨fun other => ?ignored, fun e run lawful peer foreign new room => ?record,
    fun e run peer foreign new full => ⟨fun held => ?held, fun fresh lawful room => ?overflow⟩⟩
  case ignored =>
    have same : haltFrame f (heard s) = heard s := by
      cases peer : s.peerOf f.sender.toNat with
      | none => exact haltFrame_of_unknown peer
      | some e =>
        rw [haltFrame_of_peer (s := heard s) read peer]
        refine takeHalt_ignored ?_
        rcases other with idle | unknown | own | held
        · exact .inl idle
        · rw [peer] at unknown
          cases unknown
        · exact .inr (.inl own)
        · exact .inr (.inr held)
    rw [received, same, ite_self]
  case record =>
    intro level
    obtain ⟨peers, locals, alm, state, queued⟩ := takeHalt_taken (e := e) (r := ⟨x, l⟩) (s := heard s) (level := level)
      run foreign new lawful room rfl
    have acc := calm_acc.takeHalt e ⟨x, l⟩ (heard s)
    have start := calm_start.takeHalt e ⟨x, l⟩ (heard s)
    have listen := calm_listen.takeHalt e ⟨x, l⟩ (heard s)
    exact ⟨_, taken run peer, peers, locals, alm, state, queued, acc, start, listen⟩
  case held =>
    rw [taken run peer, takeHalt_full (r := ⟨x, l⟩) (s := heard s) run foreign new full,
      raiseSoft_ignored (s := heard s) (.inr held)]
  case overflow =>
    refine ⟨raiseSoft .peerOverflow (heard s), ?_, ?_⟩
    · rw [taken run peer, takeHalt_full (r := ⟨x, l⟩) (s := heard s) run foreign new full]
    have held : s.station.setEmpty = false := by
      have longer : s.station.peers ≠ [] := fun none => by simp [none] at full
      simp [Station.setEmpty, longer]
    have state : (raiseSoft .peerOverflow (heard s)).station.state = s.station.state := by
      have standing := stands_of_held lawful held
      have stays : (s.station.takeLocal s.own .peerOverflow).softened = s.station.takeLocal s.own .peerOverflow :=
        Station.softened_of_held standing
      rw [raiseSoft_station (s := heard s) run fresh room]
      exact (congrArg Station.state stays).trans rfl
    have map : (raiseSoft .peerOverflow (heard s)).map = s.map := by
      rw [raiseSoft_of_room (s := heard s) run fresh room, actSoft_map]
      rfl
    exact ⟨raiseSoft_peers (s := heard s) run fresh room, raiseSoft_locals (s := heard s) run fresh room,
      raiseSoft_alm (s := heard s) run fresh room, state, raiseSoft_queue (s := heard s) run fresh room, map,
      raiseSoft_former (s := heard s) run fresh room, calm_acc.raiseSoft _ _⟩

end Sys2Proof.Machine
end

section
/-!
PROOF. Requests that are malformed, barred, lost or sent to all stations, and RESTART (R158, R190, R191, R203).
-/

namespace Sys2Proof.Machine

open Sys2Proof.Safety

/-! ## Malformed and well formed requests (R190) -/

/-- The answer is not the refusal of a malformed request. -/
def Formed (p : Performed) : Prop := ¬ (p.2.result = 2 ∧ p.2.detail = Refuse.malformed.code)

/-- What a request gives, by whether its operands fit: a malformed one is refused and changes nothing. -/
inductive Judged (s : State) : Bool → Performed → Prop
  | malformed : Judged s false (refuse .malformed s)
  | formed {p : Performed} (formed : Formed p) : Judged s true p

theorem formed_done {u : State} (n : Nat) (data : List Byte) : Formed (u, .done n data) := fun same => by
  cases same.1

theorem formed_written {s : State} (n : Nat) : Formed (s, .written n) := fun ⟨result, _⟩ => by
  unfold Answer.written at result
  dsimp only at result
  split at result <;> cases result

theorem formed_refuse {s : State} {r : Refuse} (other : r ≠ .malformed) : Formed (refuse r s) := fun ⟨_, detail⟩ => by
  cases r
  case malformed => exact other rfl
  all_goals cases detail

theorem formed_inService {s : State} {p : Performed} (formed : Formed p) : Formed (inService s p) := by
  unfold inService
  split
  · exact formed
  · exact formed_refuse nofun

theorem formed_ite {c : Prop} [Decidable c] {p q : Performed} (yes : Formed p) (no : Formed q) :
    Formed (if c then p else q) := by
  split
  · exact yes
  · exact no

namespace Judged

variable {s : State} {fit : Bool}

/-- Operands of a shape that no request of the code has. -/
theorem misfit (unfit : fit = false) : Judged s fit (refuse .malformed s) := unfit ▸ .malformed

theorem fits {p : Performed} (fit' : fit = true) (formed : Formed p) : Judged s fit p := fit' ▸ .formed formed

/-- Operands of the right shape, out of range where `c` holds. -/
theorem guard {c : Prop} [Decidable c] {p : Performed} (ranges : fit = true ↔ ¬ c) (formed : Formed p) :
    Judged s fit (if c then refuse .malformed s else p) := by
  split
  · exact misfit (Bool.eq_false_of_not_eq_true fun fit => ranges.mp fit ‹c›)
  · exact fits (ranges.mpr ‹¬ c›) formed

variable (s) (args : List Byte)

theorem status : Judged s (operandsFit 1 args) (doStatus args s) := by
  have page (p : Nat) (data : List Byte) (n : Nat) (ranges : operandsFit 1 args = true ↔ p ≤ 12) :
      Judged s (operandsFit 1 args) (if p ≤ 12 then (s, .done n data) else refuse .malformed s) := by
    split
    · exact fits (ranges.mpr ‹_›) (formed_done _ _)
    · exact misfit (Bool.eq_false_of_not_eq_true fun fit => ‹¬ p ≤ 12› (ranges.mp fit))
  match args with
  | [] => exact page 0 _ _ (iff_of_true rfl (by decide))
  | [p] => exact page p.toNat _ _ (by simp [operandsFit])
  | _ :: _ :: _ => exact misfit (by simp [operandsFit])

/-- A switch operand is absent, 0 or 1. -/
theorem switch_fits {code : Byte} (switches : code = 2 ∨ code = 12) (c : Byte) :
    operandsFit code [c] = true ↔ c = 0 ∨ c = 1 := by
  have range : operandsFit code [c] = true ↔ c.toNat ≤ 1 := by
    rcases switches with rfl | rfl <;> simp [operandsFit]
  rw [range, ← BitVec.toNat_inj, ← BitVec.toNat_inj]
  change _ ↔ c.toNat = 0 ∨ c.toNat = 1
  omega

theorem line : Judged s (operandsFit 2 args) (doLine args s) := by
  match args with
  | [] => exact fits rfl (formed_done _ _)
  | [c] =>
    have ranges := switch_fits (.inl rfl) c
    unfold doLine
    dsimp only
    split_ifs with zero one
    · exact fits (ranges.mpr (.inl zero)) (formed_done _ _)
    · exact fits (ranges.mpr (.inr one)) (formed_done _ _)
    · exact misfit (Bool.eq_false_of_not_eq_true fun fit => (ranges.mp fit).elim zero one)
  | _ :: _ :: _ => exact misfit (by simp [operandsFit])

theorem peers : Judged s (operandsFit 3 args) (doPeers args s) := by
  have entry (c : Prop) [Decidable c] (data : List Byte) :
      Formed (inService s (if c then refuse .notFound s else (s, .done 0 data))) :=
    formed_inService (formed_ite (formed_refuse nofun) (formed_done 0 data))
  match args with
  | [] => exact misfit rfl
  | [i] => exact guard (by simp [operandsFit]) (entry _ _)
  | [i, p] => exact guard (by simp [operandsFit]) (entry _ _)
  | _ :: _ :: _ :: _ => exact misfit (by simp [operandsFit])

theorem map : Judged s (operandsFit 4 args) (doMap args s) := by
  match args with
  | [] => exact misfit rfl
  | [i] =>
    refine fits rfl (formed_inService ?_)
    split
    · exact formed_done _ _
    · exact formed_refuse nofun
  | _ :: _ :: _ => exact misfit (by simp [operandsFit])

theorem formed_packageAnswer (r : PackageRecord) (page : Nat) : Formed (s, packageAnswer s r page) := by
  unfold packageAnswer
  split <;> exact formed_done _ _

theorem package : Judged s (operandsFit 5 args) (doPackage args s) := by
  match args with
  | [] | [_] | [_, _] => exact misfit rfl
  | [hi, lo, p] =>
    refine guard (by simp [operandsFit]) (formed_inService (formed_ite (formed_refuse nofun) ?_))
    split
    · exact formed_packageAnswer _ _ _
    · exact formed_refuse nofun
  | _ :: _ :: _ :: _ :: _ => exact misfit (by simp [operandsFit])

theorem bankRead : Judged s (operandsFit 6 args) (doBankRead args s) := by
  match args with
  | [] | [_] => exact misfit rfl
  | [k, p] =>
    refine guard (by simp [operandsFit]) (formed_inService ?_)
    dsimp only
    split
    · exact formed_done _ _
    · exact fun ⟨_, detail⟩ => by cases detail
  | _ :: _ :: _ :: _ => exact misfit (by simp [operandsFit])

theorem bankWrite : Judged s (operandsFit 7 args) (doBankWrite args s) := by
  cases fit : operandsFit 7 args
  · rw [doBankWrite_of_unfit fit]
    exact .malformed
  · refine .formed ?_
    match args with
    | [] | [_] => exact absurd fit (by simp [operandsFit])
    | k :: page :: bytes =>
      obtain ⟨bank, number, length, choices⟩ := (operandsFit_bankWrite k page bytes).mp fit
      rw [doBankWrite, writePage_eq length, if_neg (by simp [not_lt.mpr bank, not_lt.mpr number, length, choices])]
      exact formed_inService (formed_ite (formed_refuse nofun) (formed_written _))

theorem run : Judged s (operandsFit 8 args) (doRun args s) := by
  match args with
  | [] => exact misfit rfl
  | [k] =>
    exact guard (by simp [operandsFit])
      (formed_ite (formed_refuse nofun) (formed_ite (formed_refuse nofun) (formed_done _ _)))
  | _ :: _ :: _ => exact misfit (by simp [operandsFit])

theorem change : Judged s (operandsFit 9 args) (doChange args s) := by
  match args with
  | [] => exact misfit rfl
  | [k] =>
    refine guard (by simp [operandsFit]) (formed_ite (formed_refuse nofun) ?_)
    split
    · exact formed_refuse nofun
    · exact formed_refuse nofun
    · exact formed_done _ _
    · exact formed_done _ _
  | _ :: _ :: _ => exact misfit (by simp [operandsFit])

theorem go : Judged s (operandsFit 10 args) (doGo args s) := by
  match args with
  | [] => exact fits rfl (formed_ite (formed_done _ _) (formed_refuse nofun))
  | _ :: _ => exact misfit (by simp [operandsFit])

theorem stop : Judged s (operandsFit 11 args) (doStop args s) := by
  match args with
  | [] => exact misfit rfl
  | [l] =>
    have ranges : operandsFit 11 [l] = true ↔ 1 ≤ l.toNat ∧ l.toNat ≤ 2 := by simp [operandsFit]
    unfold doStop
    dsimp only
    split
    · rename_i noLevel
      refine misfit (Bool.eq_false_of_not_eq_true fun fit => ?_)
      obtain ⟨low, high⟩ := ranges.mp fit
      interval_cases l.toNat <;> cases noLevel
    · rename_i level
      refine fits (ranges.mpr ?_) (formed_ite (formed_refuse nofun) (formed_done _ _))
      unfold Code.levelOf at level
      split at level
      · omega
      · omega
      · cases level
  | _ :: _ :: _ => exact misfit (by simp [operandsFit])

theorem clear : Judged s (operandsFit 12 args) (doClear args s) := by
  have acts (force : Bool) : Formed (inService s (clearCauses force s, .done 0 [])) :=
    formed_inService (formed_done 0 [])
  match args with
  | [] => exact fits rfl (acts false)
  | [c] =>
    have ranges := switch_fits (.inr rfl) c
    unfold doClear
    dsimp only
    split_ifs with zero one
    · exact fits (ranges.mpr (.inl zero)) (acts false)
    · exact fits (ranges.mpr (.inr one)) (acts true)
    · exact misfit (Bool.eq_false_of_not_eq_true fun fit => (ranges.mp fit).elim zero one)
  | _ :: _ :: _ => exact misfit (by simp [operandsFit])

theorem endRequest : Judged s (operandsFit 13 args) (doEnd args s) := by
  match args with
  | [] => exact fits rfl (formed_ite (formed_done _ _) (formed_refuse nofun))
  | _ :: _ => exact misfit (by simp [operandsFit])

theorem restart : Judged s (operandsFit 14 args) (doRestart args s) := by
  match args with
  | [] => exact fits rfl (formed_ite (fun same => by cases same.1) (formed_refuse nofun))
  | _ :: _ => exact misfit (by simp [operandsFit])

end Judged

/-- Every request is refused as malformed by its operands alone, whatever the state (R190). -/
theorem judged (code : Byte) (args : List Byte) (s : State) :
    Judged s (operandsFit code args) (perform code.toNat args s) := by
  unfold perform
  split
  case h_1 known => obtain rfl : code = 1 := BitVec.eq_of_toNat_eq known; exact Judged.status s args
  case h_2 known => obtain rfl : code = 2 := BitVec.eq_of_toNat_eq known; exact Judged.line s args
  case h_3 known => obtain rfl : code = 3 := BitVec.eq_of_toNat_eq known; exact Judged.peers s args
  case h_4 known => obtain rfl : code = 4 := BitVec.eq_of_toNat_eq known; exact Judged.map s args
  case h_5 known => obtain rfl : code = 5 := BitVec.eq_of_toNat_eq known; exact Judged.package s args
  case h_6 known => obtain rfl : code = 6 := BitVec.eq_of_toNat_eq known; exact Judged.bankRead s args
  case h_7 known => obtain rfl : code = 7 := BitVec.eq_of_toNat_eq known; exact Judged.bankWrite s args
  case h_8 known => obtain rfl : code = 8 := BitVec.eq_of_toNat_eq known; exact Judged.run s args
  case h_9 known => obtain rfl : code = 9 := BitVec.eq_of_toNat_eq known; exact Judged.change s args
  case h_10 known => obtain rfl : code = 10 := BitVec.eq_of_toNat_eq known; exact Judged.go s args
  case h_11 known => obtain rfl : code = 11 := BitVec.eq_of_toNat_eq known; exact Judged.stop s args
  case h_12 known => obtain rfl : code = 12 := BitVec.eq_of_toNat_eq known; exact Judged.clear s args
  case h_13 known => obtain rfl : code = 13 := BitVec.eq_of_toNat_eq known; exact Judged.endRequest s args
  case h_14 known => obtain rfl : code = 14 := BitVec.eq_of_toNat_eq known; exact Judged.restart s args
  case h_15 =>
    refine Judged.misfit ?_
    unfold operandsFit
    dsimp only
    split
    case h_15 => rfl
    all_goals contradiction

end Sys2Proof.Machine
end

section
/-!
PROOF. The obligation about RESTART, refused and lost requests and requests to all stations (R158, R190, R191, R203).
-/

namespace Sys2Proof.Machine

open Sys2Proof.Safety

/-! ## A request to this station (R158, R190, R203) -/

theorem perform_of_unfit {code : Byte} {args : List Byte} (unfit : operandsFit code args = false) (s : State) :
    perform code.toNat args s = refuse .malformed s := by
  have judged := judged code args s
  rw [unfit] at judged
  generalize perform code.toNat args s = p at judged
  cases judged
  rfl

theorem formed_of_fit {code : Byte} {args : List Byte} (fit : operandsFit code args = true) (s : State) :
    Formed (perform code.toNat args s) := by
  have judged := judged code args s
  rw [fit] at judged
  generalize perform code.toNat args s = p at judged ⊢
  cases judged
  assumption

/-- A well formed request that is barred is refused with STATE and changes nothing (R158, R203). -/
theorem performAsk_of_barred {code : Byte} {args : List Byte} (fit : operandsFit code args = true) {s : State}
    (bars : barred code.toNat s = true) : performAsk code.toNat args s = refuse .state s := by
  unfold performAsk barredAnswer
  rw [if_pos bars, if_neg (formed_of_fit fit s)]
  rfl

theorem operandsFit_unknown {code : Byte} (unknown : WellFormed.unknownRequest code = true) (args : List Byte) :
    operandsFit code args = false := by
  have range : code.toNat = 0 ∨ 14 < code.toNat := by
    simp only [WellFormed.unknownRequest, Bool.or_eq_true, beq_iff_eq, decide_eq_true_eq] at unknown
    exact unknown.imp_left fun zero => by rw [zero]; rfl
  unfold operandsFit
  dsimp only
  split
  case h_15 => rfl
  all_goals omega

/-- The command of a request byte is the arrival of its ASK (R190, R191). -/
theorem exec_askOf (code : Byte) (a : Ask) (s : State) : exec (askOf code a) s = .next (receiveAsk code a s) := by
  have known {n : Nat} (same : code.toNat = n) : receiveAsk (BitVec.ofNat 8 n) a s = receiveAsk code a s := by
    rw [← same, BitVec.ofNat_toNat, BitVec.setWidth_eq]
  unfold askOf
  split
  case h_15 => rfl
  all_goals exact congrArg Host.Outcome.next (known ‹_›)

/-! ## A request to all stations, and one without room (R191) -/

theorem receiveAsk_of_heard {h : AskHead} {s : State} (addressed : hears h.sender h.dest s) (code : Byte)
    {args : List Byte} (short : args.length ≤ 22) : receiveAsk code ⟨h, args⟩ s =
      if h.dest = 0 then askAll code.toNat args (heard s) else askHere h.sender h.tag code.toNat args (heard s) := by
  have payload : (askFrame h code args).payload.length = args.length + 2 := rfl
  have received := receive_of_heard (f := askFrame h code args) (kind := 7) addressed (by decide)
    (by rw [payload]; omega) (by rw [payload]; simp [sizeFits])
  exact received

/-- The count of an ASK that is lost (R191). -/
def askLost (s : State) : State := s.setPly { s.ply with asksDropped := sat Config.count16 s.ply.asksDropped }

theorem askHere_of_full {s : State} (full : 8 ≤ s.ply.queue.length) (sender tag : Byte) (code : Nat)
    (args : List Byte) : askHere sender tag code args s = askLost s := if_neg (not_lt.mpr full)

theorem askAll_of_other {s : State} {code : Byte} (go : code ≠ 10) (stop : code ≠ 11) (clear : code ≠ 12)
    (args : List Byte) : askAll code.toNat args s = askLost s := by
  refine if_neg ?_
  rintro (known | known | known)
  · exact go (BitVec.eq_of_toNat_eq known)
  · exact stop (BitVec.eq_of_toNat_eq known)
  · exact clear (BitVec.eq_of_toNat_eq known)

/-- GO, STOP and CLEAR are performed outside HELD. -/
theorem askAll_of_three {s : State} {code : Nat} (three : code = 10 ∨ code = 11 ∨ code = 12) (args : List Byte) :
    askAll code args s = if s.station.state = .held then s else (perform code args s).1 := if_pos three

/-- Where GO, STOP and CLEAR do not apply they change nothing. -/
theorem perform_set_aside {s : State} {code : Byte} {args : List Byte}
    (aside : operandsFit code args = false ∨ (code = 10 ∧ s.station.state ≠ .ready) ∨ (code = 11 ∧ s.inRun = false) ∨
      (code = 12 ∧ s.station.setEmpty = true)) : (perform code.toNat args s).1 = s := by
  rcases aside with unfit | ⟨rfl, other⟩ | ⟨rfl, idle⟩ | ⟨rfl, empty⟩
  · rw [perform_of_unfit unfit]
    rfl
  · change (doGo args s).1 = s
    unfold doGo
    split
    · rw [if_neg other]
      rfl
    · rfl
  · change (doStop args s).1 = s
    unfold doStop
    split
    · split
      · rfl
      · rw [if_pos (by simp [idle])]
        rfl
    · rfl
  · have acts (force : Bool) : (inService s (clearCauses force s, .done 0 [])).1 = s := by
      unfold inService
      rw [clearCauses_of_empty force empty]
      split <;> rfl
    change (doClear args s).1 = s
    unfold doClear
    dsimp only
    split
    · exact acts false
    · split_ifs
      · exact acts false
      · exact acts true
      · rfl
    · rfl

section Broadcast

variable {h : AskHead} {s : State} (addressed : hears h.sender h.dest s) (all : h.dest = 0)
include addressed all

/-- To all stations GO, STOP and CLEAR are performed, and not answered. -/
theorem receiveAsk_of_all {code : Byte} {args : List Byte} (short : args.length ≤ 22)
    (three : code.toNat = 10 ∨ code.toNat = 11 ∨ code.toNat = 12) (notHeld : s.station.state ≠ .held) :
    receiveAsk code ⟨h, args⟩ s = (perform code.toNat args (heard s)).1 := by
  rw [receiveAsk_of_heard addressed code short, if_pos all, askAll_of_three three]
  exact if_neg notHeld

end Broadcast

theorem doClear_of_reports {s : State} (reports : s.station.state.reports = true) :
    doClear [] s = (clearCauses false s, .done 0 []) ∧ doClear [0] s = (clearCauses false s, .done 0 []) ∧
    doClear [1] s = (clearCauses true s, .done 0 []) := ⟨if_pos reports, if_pos reports, if_pos reports⟩

/-- CLEAR FORCE leaves no peer record and the local causes that their condition keeps (R166, R167). -/
theorem clearCauses_forced {s : State} (held : s.station.setEmpty = false) :
    (clearCauses true s).station.peers = [] ∧ (clearCauses true s).station.locals = keptCauses s := by
  obtain ⟨gone, station⟩ := resumeOwn_stands s.station.locals (settleRemoval (removeCauses true s))
  rw [clearCauses_of_held true held, station, settleRemoval_station]
  exact ⟨Station.settled_peers _, Station.settled_locals _⟩

theorem notHeld_of_inRun {s : State} (run : s.inRun = true) : s.station.state ≠ .held := fun state => by
  simp [State.inRun, state, StationState.inRun] at run

/-- A new SOFT cause by a request: it joins the local causes and acts by R153. -/
theorem raiseLocal_soft_locals {s : State} {c : LocalCause} (soft : c.level = .soft) (run : s.inRun = true)
    (new : c ∉ s.station.locals) : (raiseLocal c s).station.locals = s.station.locals ++ [c] := by
  obtain ⟨gone, station⟩ := announce_station c (s.setStation (s.station.takeLocal s.own c))
  have acts : raiseLocal c s = actSoft (announce c (s.setStation (s.station.takeLocal s.own c))) := by
    rw [raiseLocal_of_new run new, soft]
    rfl
  rw [acts, actSoft_station, Station.softened_locals, station]
  rfl

/-- A RESTART accepted (R158). -/
theorem performAsk_restart {s : State} (free : s.station.restartPending = false)
    (stands : s.station.state = .idle ∨ s.station.state = .held) : performAsk 14 [] s =
      (s.setStation { s.station with restartPending := true, answerGone := false },
        { Answer.done 0 [] with restart := true }) := by
  have unbarred : barred 14 s = false := by simp [barred, free]
  rw [performAsk, unbarred, if_neg Bool.false_ne_true]
  exact if_pos stands

theorem performAsk_restart_elsewhere {s : State} (free : s.station.restartPending = false)
    (notIdle : s.station.state ≠ .idle) (notHeld : s.station.state ≠ .held) :
    performAsk 14 [] s = refuse .state s := by
  have unbarred : barred 14 s = false := by simp [barred, free]
  rw [performAsk, unbarred, if_neg Bool.false_ne_true]
  exact if_neg (not_or.mpr ⟨notIdle, notHeld⟩)

theorem barred_of {s : State} {code : Byte} (notStatus : code ≠ 1) (notLine : code ≠ 2)
    (bars : s.station.restartPending = true ∨ (s.station.state = .held ∧ code ≠ 14)) : barred code.toNat s = true := by
  have other {n : Nat} (small : n < 256) (differs : code ≠ BitVec.ofNat 8 n) : code.toNat ≠ n := fun same =>
    differs (BitVec.eq_of_toNat_eq (same.trans (Nat.mod_eq_of_lt small).symm))
  have status := other (n := 1) (by decide) notStatus
  have line := other (n := 2) (by decide) notLine
  rcases bars with pending | ⟨held, notRestart⟩
  · simp [barred, status, line, pending]
  · simp [barred, status, line, held, other (n := 14) (by decide) notRestart]

/-- GO, STOP and CLEAR to all stations where they do not apply, or in HELD (R191; log entry 22). -/
theorem receiveAsk_aside {h : AskHead} {s : State} (addressed : hears h.sender h.dest s) (all : h.dest = 0)
    {code : Byte} {args : List Byte} (short : args.length ≤ 22) (three : code = 10 ∨ code = 11 ∨ code = 12)
    (aside : operandsFit code args = false ∨ s.station.state = .held ∨ (code = 10 ∧ s.station.state ≠ .ready) ∨
      (code = 11 ∧ s.inRun = false) ∨ (code = 12 ∧ s.station.setEmpty = true)) :
    receiveAsk code ⟨h, args⟩ s = heard s := by
  have three' : code.toNat = 10 ∨ code.toNat = 11 ∨ code.toNat = 12 := by
    rcases three with rfl | rfl | rfl <;> decide
  rw [receiveAsk_of_heard addressed code short, if_pos all, askAll_of_three three']
  split
  · rfl
  · rename_i notHeld
    refine perform_set_aside (aside.imp_right fun rest => rest.resolve_left notHeld)

/-- Settles O49, by destination and room: refused requests by `judged`, the others by what they perform. -/
theorem restartAndUnknownRequestsAreAnswered : Obligations.RestartAndUnknownRequestsAreAnswered := by
  intro s h lost
  have lost_eq : askLost (heard s) = lost := rfl
  have one (x : Byte) : [x].length ≤ 22 := Nat.le_of_ble_eq_true rfl
  refine ⟨fun ask free => ⟨fun stands => ?restart, fun notIdle notHeld => ?elsewhere,
      fun code args unknown short => ?unknown⟩,
    fun code args short => ⟨fun ask => ⟨fun unfit => ?malformed, fun fit notStatus notLine bars => ?barred⟩,
      fun addressed here full => ?full,
      fun addressed all => ⟨fun go stop clear => ?counted, fun three aside => ?aside⟩⟩,
    fun addressed all => ⟨fun ready => ?go,
      fun run => ⟨?stop, fun new lawful => ?easing, ?clear, ?clearZero, fun held => ?force⟩⟩⟩
  case restart =>
    have performed := performAsk_restart (s := holdPlace true (heard s)) free stands
    have received := receiveAsk_of_asked ask 14 (args := []) (Nat.zero_le _)
    refine congrArg Host.Outcome.next (received.trans ?_)
    rw [show (14 : Byte).toNat = 14 from rfl, performed]
    dsimp only
    rw [payload_eq]
    rfl
  case elsewhere =>
    exact congrArg Host.Outcome.next (receiveAsk_refused (code := 14) ask (Nat.zero_le _)
      (performAsk_restart_elsewhere (s := holdPlace true (heard s)) free notIdle notHeld))
  case unknown =>
    exact congrArg Host.Outcome.next (receiveAsk_refused ask short
      (performAsk_of_malformed (perform_of_unfit (operandsFit_unknown unknown args) _)))
  case malformed =>
    rw [exec_askOf, receiveAsk_refused ask short (performAsk_of_malformed (perform_of_unfit unfit _))]
    rfl
  case barred =>
    rw [exec_askOf, receiveAsk_refused ask short (performAsk_of_barred fit
      (barred_of (s := holdPlace true (heard s)) notStatus notLine bars))]
    rfl
  case full =>
    rw [exec_askOf, receiveAsk_of_heard addressed code short, if_neg here, askHere_of_full (s := heard s) full, lost_eq]
  case counted =>
    rw [exec_askOf, receiveAsk_of_heard addressed code short, if_pos all, askAll_of_other go stop clear, lost_eq]
  case aside => rw [exec_askOf, receiveAsk_aside addressed all short three aside]
  case go =>
    have notHeld : s.station.state ≠ .held := by simp [ready]
    have received := receiveAsk_of_all addressed all (code := 10) (args := []) (Nat.zero_le _) (.inl rfl) notHeld
    have performed : doGo [] (heard s) = (takeGo (heard s).own (heard s), .done 0 []) := if_pos ready
    rw [exec_staEdge_ready (s := heard s) ready]
    exact congrArg Host.Outcome.next (received.trans (congrArg Prod.fst performed))
  case stop =>
    have received := receiveAsk_of_all addressed all (code := 11) (one 1) (.inr (.inl rfl)) (notHeld_of_inRun run)
    have performed := doStop_of_run (s := heard s) .hard run
    exact congrArg Host.Outcome.next (received.trans (congrArg Prod.fst performed))
  case easing =>
    have received := receiveAsk_of_all addressed all (code := 11) (one 2) (.inr (.inl rfl)) (notHeld_of_inRun run)
    have performed := doStop_of_run (s := heard s) .soft run
    have acted := raiseLocal_acted (s := heard s) (c := .requestStop) lawful run new
    have locals := raiseLocal_soft_locals (s := heard s) (c := .requestStop) rfl run new
    refine ⟨_, congrArg Host.Outcome.next (received.trans (congrArg Prod.fst performed)), locals, acted.alm, ?_⟩
    refine acted.state.trans ?_
    change struckState s.station.state .soft = _
    cases s.station.state <;> rfl
  case clear =>
    obtain ⟨plain, -, -⟩ := doClear_of_reports (s := heard s) (reports_of_inRun run)
    have received := receiveAsk_of_all addressed all (code := 12) (args := []) (Nat.zero_le _) (.inr (.inr rfl))
      (notHeld_of_inRun run)
    rw [exec_clrEdge_of_run (s := heard s) run]
    exact congrArg Host.Outcome.next (received.trans (congrArg Prod.fst plain))
  case clearZero =>
    obtain ⟨-, zero, -⟩ := doClear_of_reports (s := heard s) (reports_of_inRun run)
    have received := receiveAsk_of_all addressed all (code := 12) (one 0) (.inr (.inr rfl)) (notHeld_of_inRun run)
    rw [exec_clrEdge_of_run (s := heard s) run]
    exact congrArg Host.Outcome.next (received.trans (congrArg Prod.fst zero))
  case force =>
    obtain ⟨-, -, forced⟩ := doClear_of_reports (s := heard s) (reports_of_inRun run)
    have received := receiveAsk_of_all addressed all (code := 12) (one 1) (.inr (.inr rfl)) (notHeld_of_inRun run)
    obtain ⟨peers, locals⟩ := clearCauses_forced (s := heard s) held
    exact ⟨_, congrArg Host.Outcome.next (received.trans (congrArg Prod.fst forced)), peers,
      locals.trans (keptCauses_eq s).symm⟩

end Sys2Proof.Machine
end

section
/-!
PROOF. BRK and STP: the HARD cause, the entry to STOPPED with its STOP entry where no entry is open, and the obligation
about the HARD inputs (R73, R153, R155, R162, R169).
-/

namespace Sys2Proof.Machine

open Sys2Proof.Safety

/-! ## The STOP entry with no entry open (R73, R155) -/

theorem AllClosed.stopTwist {s : State} (closed : AllClosed s.map.entries) :
    Machine.stopTwist s = s.setTwist (if s.isLaying then s.twist.discardWindow.endRun else s.twist) := by
  have ended (t : Twist) : Machine.closeEntry .twist (s.setTwist t) = (s.setTwist t, none) :=
    closed.closeEntry (s := s.setTwist t) .twist
  unfold Machine.stopTwist endTwistRun
  split
  · exact congrArg (fun r => tellClosed (r.1, r.2.toList)) (ended _)
  · rfl

theorem AllClosed.stopKnot {s : State} (closed : AllClosed s.map.entries) :
    Machine.stopKnot s = s.setKnot (if s.isNetting then s.knot.discardRow else s.knot) := by
  have ended (k : Knot) (kind : EntryKind) : Machine.closeEntry kind (s.setKnot k) = (s.setKnot k, none) :=
    closed.closeEntry (s := s.setKnot k) kind
  unfold Machine.stopKnot closeKnotEntries
  split
  · rw [ended]
    dsimp only
    rw [ended]
    rfl
  · rfl

/-- A STOPPED station once window and row are discarded, with none of its entries open. -/
def discarded (s : State) : State := Machine.stopKnot (Machine.stopTwist (stilled s))

section Discarded

variable {s : State} (closed : AllClosed s.map.entries)
include closed

theorem discarded_eq : ∃ t k, discarded s = ((stilled s).setTwist t).setKnot k := by
  have still : AllClosed (stilled s).map.entries := by simpa [stilled] using closed
  have twisted := still.stopTwist
  have knotted (t : Twist) := AllClosed.stopKnot (s := (stilled s).setTwist t) still
  exact ⟨_, _, by rw [discarded, twisted, knotted]⟩

theorem discarded_map : (discarded s).map = s.map := by
  obtain ⟨t, k, eq⟩ := discarded_eq closed
  rw [eq]
  simp [stilled]

theorem discarded_ply : (discarded s).ply = s.ply := by
  obtain ⟨t, k, eq⟩ := discarded_eq closed
  rw [eq]
  simp [stilled]

theorem discarded_start : (discarded s).start = s.start := by
  obtain ⟨t, k, eq⟩ := discarded_eq closed
  rw [eq]
  simp [stilled]

theorem discarded_listen : (discarded s).pace.listen = s.pace.listen := by
  obtain ⟨t, k, eq⟩ := discarded_eq closed
  rw [eq]
  simp [stilled]

theorem discarded_pos : (discarded s).pos = s.pos := by
  obtain ⟨t, k, eq⟩ := discarded_eq closed
  rw [eq]
  have length : (stilled s).length = { s.length with dwelling := false } :=
    clearDwell_length (s.setStation (s.station.enter .stopped))
  refine pos_congr ?_
  rw [State.setKnot_length, State.setTwist_length, length]

omit closed in
theorem enterStopped_eq (s : State) : enterStopped s = refreshPace (match lastLocal .stop (discarded s) with
    | some e =>
      if e.position = (discarded s).pos then mergeLocal .stop (discarded s) else offerPoint .stop (discarded s)
    | none => offerPoint .stop (discarded s)) := by
  have begins : (clearDwell (s.setStation (s.station.enter .stopped))).setPace
      { (clearDwell (s.setStation (s.station.enter .stopped))).pace with run := 0 } = stilled s := by simp [stilled]
  unfold enterStopped
  dsimp only
  rw [begins]
  rfl

theorem lastLocal_discarded : lastLocal .stop (discarded s) = lastLocal .stop s := by
  rw [lastLocal, lastLocal, discarded_map closed]

/-- A STOP at the position of the last local one merges into it (R73). -/
theorem enterStopped_merges {e : MapEntry} (last : lastLocal .stop s = some e) (here : e.position = s.pos) :
    (enterStopped s).ply.queue = s.ply.queue ∧ (enterStopped s).map = (mergeLocal .stop s).map := by
  have logged : enterStopped s = refreshPace (mergeLocal .stop (discarded s)) := by
    rw [enterStopped_eq, lastLocal_discarded closed, last]
    exact congrArg refreshPace (if_pos (by rw [discarded_pos closed, here]))
  rw [logged, refreshPace_queue, refreshPace_map]
  refine ⟨?_, ?_⟩
  · change (discarded s).ply.queue = _
    rw [discarded_ply closed]
  · simp only [mergeLocal, State.setMap_map, discarded_map closed]

/-- A STOP elsewhere is inserted and handed off (R73, R80). -/
theorem enterStopped_inserts (apart : ∀ e, lastLocal .stop s = some e → e.position ≠ s.pos)
    (room : s.map.entries.length < Config.mapCapacity)
    (places : s.ply.queue.length + (handOffFrames (closedPoint .stop s.pos) s).length ≤ s.ply.room) :
    (enterStopped s).ply.queue = s.ply.queue ++ handOffFrames (closedPoint .stop s.pos) s ∧
    (enterStopped s).map = (withPoint .stop s).map := by
  have offered : enterStopped s = refreshPace (offerPoint .stop (discarded s)) := by
    rw [enterStopped_eq, lastLocal_discarded closed]
    cases last : lastLocal .stop s with
    | none => rfl
    | some e => exact congrArg refreshPace (if_neg (by rw [discarded_pos closed]; exact apart e last))
  have frames : handOffFrames (closedPoint .stop s.pos) (withPoint .stop (discarded s)) =
      handOffFrames (closedPoint .stop s.pos) s := by
    unfold handOffFrames State.peers State.own
    rw [show (withPoint .stop (discarded s)).pace.listen = (discarded s).pace.listen from rfl, discarded_listen closed,
      show (withPoint .stop (discarded s)).start = (discarded s).start from rfl, discarded_start closed]
  have ply : (withPoint .stop (discarded s)).ply = s.ply := discarded_ply closed
  have light : (closedPoint .stop (discarded s).pos).evictable = true := rfl
  have handed := handOff_of_room (closedPoint .stop s.pos) (withPoint .stop (discarded s))
    (by rw [frames, ply]; exact places)
  rw [offered, refreshPace_queue, refreshPace_map,
    offerPoint_of_room light (by rw [discarded_map closed]; exact room), discarded_pos closed, handed]
  refine ⟨?_, ?_⟩
  · rw [State.setPly_ply, frames, ply]
  · rw [State.setPly_map]
    simp only [withPoint, discarded_pos closed, discarded_map closed]

end Discarded

/-- The TAKE peers in the order of the listen table (R80). -/
theorem takers_eq (s : State) : s.peers.filter (fun p => p.role == .take) =
    s.pace.listen.toList.filter (fun p => p.status == .peer && p.role == .take) := by
  rw [State.peers, List.filter_filter]
  exact List.filter_congr fun p _ => Bool.and_comm _ _

/-- The frames that hand a STOP off: MINOR, of count 1, from this station (R80). -/
theorem handOffFrames_stop (position : Nat) (s : State) : handOffFrames (closedPoint .stop position) s =
    (s.pace.listen.toList.filter (fun p => p.status == .peer && p.role == .take)).map (fun p => fresh (.handoff {
      dest := p.number, kind := .stop, origin := s.own, severity := .minor, count := 1
      extent := 0, entryEnd := position, travel := 0 })) := by
  rw [handOffFrames, takers_eq]
  rfl

end Sys2Proof.Machine
end

section
/-!
PROOF. The obligation about BRK and STP, station state by station state (R153, R155, R160, R162, R165, R169).
-/

namespace Sys2Proof.Machine

open Sys2Proof.Safety

/-! ## A HARD local cause in a run -/

/-- What a new HARD local cause leaves of a state: cause set, station state, pace, and by the state it meets the queue
and the map. -/
structure HardStopped (c : LocalCause) (s t : State) : Prop where
  set : c ∈ t.station.locals ∧ (∀ x ∈ s.station.locals, x ∈ t.station.locals) ∧ t.station.peers = s.station.peers
  state : t.station.state = .stopped ∧ t.station.den = false ∧ t.station.alm = true
  firstNew : s.station.setEmpty = true → t.station.firstCause = some ⟨.loc c, s.own⟩
  firstOld : s.station.setEmpty = false → t.station.firstCause = s.station.firstCause
  run : s.station.state ≠ .stopped → t.pace.run = 0
  frame : t.length.acc = s.length.acc ∧ t.start = s.start ∧ t.pace.listen = s.pace.listen
  stopped : s.station.state = .stopped → t.ply = s.ply ∧ t.map = s.map
  ready : s.station.state = .ready → t.map = s.map ∧
    (s.ply.queue.length < s.ply.room → t.ply.queue = s.ply.queue ++ [fresh (.halt s.own .hard)])
  merges : s.station.state.driven = true → AllClosed s.map.entries → s.ply.queue.length < s.ply.room →
    ∀ e, lastLocal .stop s = some e → e.position = s.pos →
      t.ply.queue = s.ply.queue ++ [fresh (.halt s.own .hard)] ∧ t.map = (mergeLocal .stop s).map
  inserts : s.station.state.driven = true → AllClosed s.map.entries →
    s.ply.queue.length + 1 + (handOffFrames (closedPoint .stop s.pos) s).length ≤ s.ply.room →
    (∀ e, lastLocal .stop s = some e → e.position ≠ s.pos) → s.map.entries.length < Config.mapCapacity →
      t.ply.queue = s.ply.queue ++ [fresh (.halt s.own .hard)] ++ handOffFrames (closedPoint .stop s.pos) s ∧
      t.map = (withPoint .stop s).map
  halt : s.station.state ≠ .stopped → s.ply.queue.length < s.ply.room → fresh (.halt s.own .hard) ∈ t.ply.queue

section Hard

variable {s : State} {c : LocalCause} (hard : c.level = .hard) (run : s.inRun = true) (new : c ∉ s.station.locals)
include hard run new

theorem raiseLocal_hard : raiseLocal c s = actLevel .hard (announced c s) := by
  rw [raiseLocal_of_new run new, hard]
  rfl

omit new in
/-- The HALT that announces the cause, with room for it (R169). -/
theorem announced_of_room (moving : s.station.state ≠ .stopped) (room : s.ply.queue.length < s.ply.room) :
    announced c s = (s.setStation (s.station.takeLocal s.own c)).setPly { s.ply with
      queue := s.ply.queue ++ [fresh (.halt s.own .hard)] } := by
  have announced := announce_of_room (s := s.setStation (s.station.takeLocal s.own c)) c run room
  rw [hard] at announced
  exact announced.trans (if_neg moving)

omit hard run new in
theorem announced_state : (announced c s).station.state = s.station.state := by
  obtain ⟨gone, station⟩ := announced_stands c s
  rw [station]
  rfl

omit hard run new in
theorem announced_of_stopped (stopped : s.station.state = .stopped) :
    announced c s = s.setStation (s.station.takeLocal s.own c) := by
  have state : (s.setStation (s.station.takeLocal s.own c)).station.state = .stopped := stopped
  rw [announced, announce, state]

/-- On a STOPPED station the cause enters the set, and nothing else happens. -/
theorem raiseLocal_of_stopped (stopped : s.station.state = .stopped) :
    raiseLocal c s = s.setStation (s.station.takeLocal s.own c) := by
  have state : (s.setStation (s.station.takeLocal s.own c)).station.state = .stopped := stopped
  rw [raiseLocal_hard hard run new, announced_of_stopped stopped, Machine.actLevel, state]

theorem raiseLocal_of_ready (ready : s.station.state = .ready) :
    raiseLocal c s = stopFromReady (announced c s) := by
  rw [raiseLocal_hard hard run new, Machine.actLevel, announced_state.trans ready]

theorem raiseLocal_of_driven (driven : s.station.state.driven = true) :
    raiseLocal c s = enterStopped (announced c s) := by
  rw [raiseLocal_hard hard run new, Machine.actLevel, announced_state (c := c)]
  cases state : s.station.state
  case run | easing => rfl
  all_goals simp [state, StationState.driven] at driven

theorem raiseLocal_run_zero (moving : s.station.state ≠ .stopped) : (raiseLocal c s).pace.run = 0 := by
  by_cases ready : s.station.state = .ready
  · rw [raiseLocal_of_ready hard run new ready, stopFromReady, changeState_run]
    rfl
  · have driven : s.station.state.driven = true := by
      obtain state | state := ((inRun_cases run).resolve_left ready).imp_right (·.resolve_right moving)
      · rw [state]
        rfl
      · rw [state]
        rfl
    rw [raiseLocal_of_driven hard run new driven]
    obtain ⟨x, entered, halted⟩ := enterStopped_halted (announced c s)
    rw [entered, refreshPace_run, halted.pace]
    rfl

/-- From READY no STOP entry is written, and the HALT alone is queued. -/
theorem raiseLocal_ready_line (ready : s.station.state = .ready) : (raiseLocal c s).map = s.map ∧
    (s.ply.queue.length < s.ply.room → (raiseLocal c s).ply.queue = s.ply.queue ++ [fresh (.halt s.own .hard)]) := by
  rw [raiseLocal_of_ready hard run new ready]
  refine ⟨?_, fun room => ?_⟩
  · rw [stopFromReady_map]
    exact announce_map c _
  · rw [stopFromReady, changeState_queue, State.setPace_ply, clearDwell_ply,
      announced_of_room hard run (by simp [ready]) room]
    rfl

section Driven

variable (driven : s.station.state.driven = true) (closed : AllClosed s.map.entries)
  (room : s.ply.queue.length < s.ply.room)
include driven closed room

omit new closed in
theorem driven_announced : announced c s = (s.setStation (s.station.takeLocal s.own c)).setPly { s.ply with
    queue := s.ply.queue ++ [fresh (.halt s.own .hard)] } :=
  announced_of_room hard run (fun stopped => by simp [stopped, StationState.driven] at driven) room

/-- From RUN or EASING a STOP at the position of the last local one merges into it. -/
theorem raiseLocal_merges {e : MapEntry} (last : lastLocal .stop s = some e) (here : e.position = s.pos) :
    (raiseLocal c s).ply.queue = s.ply.queue ++ [fresh (.halt s.own .hard)] ∧
    (raiseLocal c s).map = (mergeLocal .stop s).map := by
  rw [raiseLocal_of_driven hard run new driven, driven_announced hard run driven room]
  exact enterStopped_merges (s := (s.setStation (s.station.takeLocal s.own c)).setPly _) closed last here

/-- From RUN or EASING a STOP elsewhere is inserted and handed off after the HALT (log entry 33). -/
theorem raiseLocal_inserts (apart : ∀ e, lastLocal .stop s = some e → e.position ≠ s.pos)
    (free : s.map.entries.length < Config.mapCapacity)
    (places : s.ply.queue.length + 1 + (handOffFrames (closedPoint .stop s.pos) s).length ≤ s.ply.room) :
    (raiseLocal c s).ply.queue =
      s.ply.queue ++ [fresh (.halt s.own .hard)] ++ handOffFrames (closedPoint .stop s.pos) s ∧
    (raiseLocal c s).map = (withPoint .stop s).map := by
  rw [raiseLocal_of_driven hard run new driven, driven_announced hard run driven room]
  refine enterStopped_inserts (s := (s.setStation (s.station.takeLocal s.own c)).setPly _) closed apart free ?_
  rw [State.setPly_ply, List.length_append, List.length_singleton]
  exact places

end Driven

theorem raiseLocal_hardStopped (lawful : StationLawful s) : HardStopped c s (raiseLocal c s) := by
  have caused : s.station.Caused c.level (announced c s).station := Ruled.caused_announce lawful.2 c
  have struck := actLevel_struck lawful.2 run caused
  rw [← raiseLocal_hard hard run new] at struck
  obtain ⟨gone, station⟩ := announced_stands c s
  have locals : (announced c s).station.locals = s.station.locals ++ [c] := by rw [station]; rfl
  have first : (announced c s).station.firstCause =
      if s.station.setEmpty then some ⟨.loc c, s.own⟩ else s.station.firstCause := by rw [station]; rfl
  have kept := struck.locals
  rw [locals] at kept
  constructor
  case set =>
    refine ⟨kept c List.mem_concat_self, fun x mem => kept x (List.mem_append_left _ mem), ?_⟩
    rw [struck.peers, station]
    rfl
  case state => exact ⟨struck.state, struck.den, struck.alm⟩
  case firstNew =>
    intro empty
    rw [struck.first, first, if_pos empty]
  case firstOld =>
    intro held
    rw [struck.first, first, if_neg (by simp [held])]
  case run => exact raiseLocal_run_zero hard run new
  case frame => exact ⟨calm_acc.raiseLocal c s, calm_start.raiseLocal c s, calm_listen.raiseLocal c s⟩
  case stopped =>
    intro state
    rw [raiseLocal_of_stopped hard run new state]
    exact ⟨rfl, rfl⟩
  case ready => exact raiseLocal_ready_line hard run new
  case merges =>
    intro driven closed room e last here
    exact raiseLocal_merges hard run new driven closed room last here
  case inserts =>
    intro driven closed places apart free
    exact raiseLocal_inserts hard run new driven closed (by omega) apart free places
  case halt =>
    intro moving room
    refine struck.urgent _ ?_ rfl
    rw [announced_of_room hard run moving room]
    exact List.mem_concat_self

theorem raiseLocal_pin (lawful : StationLawful s) : (raiseLocal c s).station.brkActive = s.station.brkActive := by
  have caused : s.station.Caused c.level (announced c s).station := Ruled.caused_announce lawful.2 c
  have struck := actLevel_struck lawful.2 run caused
  obtain ⟨gone, station⟩ := announced_stands c s
  rw [raiseLocal_hard hard run new, struck.pin, station]
  rfl

end Hard

/-! ## The inputs (R161, R162) -/

/-- The BRK pin read active. -/
def pressed (s : State) : State := s.setStation { s.station with brkActive := true }

theorem exec_brkActive_of_released {s : State} (released : s.station.brkActive = false) :
    exec .brkActive s = .next (raiseLocal .brk (pressed s)) :=
  congrArg Host.Outcome.next (if_neg (by simp [released]))

theorem exec_brkActive_of_active {s : State} (active : s.station.brkActive = true) : exec .brkActive s = .next s :=
  congrArg Host.Outcome.next (if_pos active)

/-- Where BRK raises nothing it is read all the same. -/
theorem exec_brkActive_ignored {s : State} (nothing : s.inRun = false ∨ .brk ∈ s.station.locals) :
    exec .brkActive s = .next (pressed s) := by
  cases active : s.station.brkActive
  · rw [exec_brkActive_of_released active, raiseLocal_unchanged (s := pressed s) nothing]
  · rw [exec_brkActive_of_active active]
    have same : { s.station with brkActive := true } = s.station := by rw [← active]
    rw [pressed, same]
    rfl

/-- The reading of the BRK pin has no part in what a cause does. -/
theorem HardStopped.of_pressed {c : LocalCause} {s t : State} (h : HardStopped c (pressed s) t) : HardStopped c s t :=
  ⟨h.set, h.state, h.firstNew, h.firstOld, h.run, h.frame, h.stopped, h.ready, h.merges, h.inserts, h.halt⟩

/-- Settles O22: what the cause leaves by `HardStopped`, and queue and map by the station state it meets. -/
theorem hardInputsStopTheStation : Obligations.HardInputsStopTheStation := by
  intro s lawful takers halted stopped
  have outcome {c : LocalCause} {t : State} (h : HardStopped c s t) : stopped c t := by
    obtain ⟨own, others, peers⟩ := h.set
    obtain ⟨state, den, alm⟩ := h.state
    obtain ⟨acc, start, listen⟩ := h.frame
    refine ⟨own, others, peers, state, den, alm, h.firstNew, h.firstOld, h.run, acc, start, listen, h.stopped, h.halt,
      h.ready, fun driven closed places => ⟨h.merges driven closed (by omega), fun apart free => ?_⟩⟩
    have frames := handOffFrames_stop s.pos s
    have count : (handOffFrames (closedPoint .stop s.pos) s).length = takers.length := by
      rw [frames, List.length_map]
    obtain ⟨queue, map⟩ := h.inserts driven closed (by omega) apart free
    rw [frames] at queue
    exact ⟨map, queue⟩
  refine ⟨exec_brkActive_of_active, exec_brkActive_ignored, fun nothing => ?ignored, rfl, fun run released new => ?brk,
    fun run new => ?stp⟩
  case ignored => exact congrArg Host.Outcome.next (raiseLocal_unchanged nothing)
  case brk =>
    have raised := raiseLocal_hardStopped (s := pressed s) (c := .brk) rfl run new lawful
    have pin := raiseLocal_pin (s := pressed s) (c := .brk) rfl run new lawful
    exact ⟨_, exec_brkActive_of_released released, outcome raised.of_pressed, pin⟩
  case stp =>
    have raised := raiseLocal_hardStopped (c := .localStop) rfl run new lawful
    exact ⟨_, rfl, outcome raised, raiseLocal_pin (c := .localStop) rfl run new lawful⟩

end Sys2Proof.Machine
end
